-- ==== Sys2Proof/Word.lean ====
section
/-! DEFINITION. The words of the machine: a byte of a frame, a record or the window (00_scope.md, Byte order), and the
16-bit and 32-bit values whose bits the manual shifts and masks (the checks of R22 and R82). -/

namespace Sys2Proof

/-- One byte of a frame, of a request or notice record, or of the window. -/
abbrev Byte := BitVec 8

/-- A 16-bit value treated as bits: the CRC-16 register of R22 and the parameter hash of R39. -/
abbrev Word16 := BitVec 16

/-- A 32-bit value treated as bits: the CRC-32 register and the board signature of R82. -/
abbrev Word32 := BitVec 32

/-- A job id (R8): origin × 2048 + sequence; 0 names no job. -/
abbrev JobId := Nat

/-- A station number (R15): 1–31; 0 names no station. -/
abbrev Station := Nat

end Sys2Proof
end

