-- ==== Sys2Proof/Syntax.lean ====
section
/-! DEFINITION. The commands of the block: one constructor per row of spec/opcode_table.json. A row whose data already
stands in a queue of the station (a request record, a received frame) carries no operand; the others carry what comes
from outside (log 3). -/

namespace Sys2Proof

/-- R184: how a data byte stands to its transaction: the first of one, after the access byte given, at the address at which
the byte moves; or a further byte of the transaction in progress. -/
abbrev Opening := Option Byte

/-- A command: one step of the part, whole and indivisible (95_what_each_step_holds.md). -/
inductive Instr where
  /-- R40. The Membership Unit takes a JOIN request. -/
  | joinRequest
  /-- R52. The Membership Unit takes a LEAVE request. -/
  | leaveRequest
  /-- R55. The Membership Unit takes an ACK_FAULT request. -/
  | ackFault
  /-- R194. The Local Port takes a RESET request. -/
  | resetRequest
  /-- R10–R13. The Job Board takes a SUBMIT request. -/
  | submit
  /-- R71. The Job Board takes a CANCEL request. -/
  | cancelRequest
  /-- R125. The Dock Table takes a FREE_DOCK request. -/
  | freeDock
  /-- R75. The Job Board takes a RESOLVE_JOB request. -/
  | resolveJob
  /-- R145. The Boundary Unit takes a RESOLVE_AISLE request. -/
  | resolveAisle
  /-- R157. The Step Sequencer takes a HOMED request. -/
  | homed
  /-- R158. The Step Sequencer takes a STEP_DONE request. -/
  | stepDone
  /-- R159. The Step Sequencer takes a STEP_FAULT request. -/
  | stepFault
  /-- R161. The Step Sequencer takes a RETRY request. -/
  | retry
  /-- R162. The Step Sequencer takes an ABANDON request. -/
  | abandon
  /-- R164. The Step Sequencer takes a MODE request of value MANUAL. -/
  | modeManual
  /-- R164. The Step Sequencer takes a MODE request of value AUTO. -/
  | modeAuto
  /-- R164. The Step Sequencer takes a MODE request of value OUT_OF_SERVICE. -/
  | modeOutOfService
  /-- R164. The Step Sequencer takes a MODE request of value IN_SERVICE. -/
  | modeInService
  /-- R189. The Local Port refuses a record of unknown kind or wrong length. -/
  | requestBadKind
  /-- R188. A data byte written to the request port. -/
  | requestPortWrite (value : Byte) (first : Opening := none)
  /-- R191. A data byte read from the notice port. -/
  | noticePortRead (first : Opening := none)
  /-- R186. A data byte read at a window address, that of a clear location. -/
  | clearLocationRead (addr : Nat) (first : Opening := none)
  /-- R186. A data byte written to offset 0x10. -/
  | interruptEnableWrite (value : Byte) (first : Opening := none)
  /-- R187. A data byte written at a window address of the configuration block. -/
  | configurationBlockWrite (addr : Nat) (value : Byte) (first : Opening := none)
  /-- R107. A data byte written at a window address of the profile region. -/
  | profileTableWrite (addr : Nat) (value : Byte) (first : Opening := none)
  /-- R185. A data byte written at an address that has no write behaviour. -/
  | ignoredWrite (addr : Nat) (value : Byte) (first : Opening := none)
  /-- R184. The select line is released. -/
  | selectRelease
  /-- R194. The RESET pin is asserted. -/
  | resetPin
  /-- R16, R25. A contention position begins; `lineIdle` says whether the line is still idle then. -/
  | frameStart (position : Nat) (lineIdle : Bool)
  /-- R19. The station's own frame on the line is found to differ. -/
  | collision
  /-- R29. The station's own frame on the line reaches its end without a difference. -/
  | frameComplete
  /-- R30. A frame of another station ends on the line; its bytes as received. -/
  | frameReceive (bytes : List Byte)
  /-- R27. A waiting obligatory mark is turned into a frame. -/
  | markToFrame
  /-- R41. A LISTENING station takes a frame and records it. -/
  | listenRecord
  /-- R43. A station in the founding wait takes its own JOIN. -/
  | foundingJoin
  /-- R38. A FAULTED station takes a frame and discards it. -/
  | faultedDiscard
  /-- R45, R46. -/
  | applyJoin
  /-- R54. -/
  | applyLeave
  /-- R53. -/
  | applyLost
  /-- R49, R78, R170. -/
  | applyDigest
  /-- R62–R64. -/
  | applyOffer
  /-- R90. -/
  | applyBid
  /-- R93. -/
  | applyAwardBid
  /-- R96. -/
  | applyAwardChain
  /-- R68, STARTED. -/
  | applyProgressStarted
  /-- R68, PICKED. -/
  | applyProgressPicked
  /-- R68, DONE. -/
  | applyProgressDone
  /-- R68, FAILED with a detail other than EXHAUSTED. -/
  | applyProgressFailed
  /-- R68, STRANDED. -/
  | applyProgressStranded
  /-- R68, RELEASED. -/
  | applyProgressReleased
  /-- R70, FAILED with detail EXHAUSTED. -/
  | applyProgressExhausted
  /-- R74. -/
  | applyCancel
  /-- R126. -/
  | applyDock
  /-- R76. -/
  | applyResolveJob
  /-- R146. -/
  | applyResolveAisle
  /-- R138, R139. -/
  | applyBoundaryAsk
  /-- R141. -/
  | applyBoundaryGrant
  /-- R142. -/
  | applyBoundaryRefuse
  /-- R174. -/
  | applySyncAsk
  /-- R178. -/
  | applySnapHead
  /-- R178. -/
  | applySnapItem
  /-- R179–R182. -/
  | applySnapEnd
  /-- R42. The listen timer expires. -/
  | listenTimerExpiry
  /-- R48. The presence timer expires. -/
  | presenceTimerExpiry
  /-- R51. The silence timer of a peer expires. -/
  | silenceTimerExpiry (peer : Station)
  /-- R91. The bid window of a job expires. -/
  | bidWindowClose (job : JobId)
  /-- R98. The custodial timer of a job expires. -/
  | custodialTimerExpiry (job : JobId)
  /-- R155. The timer of the outstanding step expires. -/
  | stepTimerExpiry
  /-- R137. The re-ask timer expires. -/
  | reAskTimerExpiry
  /-- R172, R180. The snapshot timer expires. -/
  | snapshotTimerExpiry
  /-- R154. The Step Sequencer judges its issue conditions. -/
  | stepIssue
  /-- R194. The RESET pin is released. -/
  | resetPinRelease
deriving DecidableEq, Repr

end Sys2Proof
end

