-- ==== Sys2Proof/Config.lean ====
section
/-! DEFINITION. What an implementation of the part fixes and the manual does not: the free values (constants with no
body, so that no proof can know them), and the capacities the manual gives. -/

namespace Sys2Proof.Config

/-- FREE VALUE (log 6). A byte for which no rule gives a value: the expected class carried by the STEP notice of a DROP
(R154 lists the field for a PICK or DROP, R153 gives its value for a PICK alone), and the boundary carried by a BOUNDARY_WAIT
of a SYNCING station that holds no record of its aisle (R142). Applied to a fresh counter. -/
opaque freeByte : Nat → BitVec 8

/-- FREE VALUE (log 6). The remaining estimate of a run-list job whose job record the station's own board lacks (R114
computes it from that record). Applied to a fresh counter. -/
opaque freeEstimate : Nat → BitVec 16

/-- FREE VALUE (log 6). The two bytes in which a STEP_OVERDUE notice carries an estimate above 65535 (R190 gives an estimate
two bytes). A function of the estimate. -/
opaque wideEstimate : Nat → BitVec 16

/-- FREE VALUE (log 7). Whether a station whose role byte is neither 1 nor 2 is judged as a dispatch station (R10, R71,
R156 speak of crane and dispatch stations alone). A function of the byte. -/
opaque strayRole : BitVec 8 → Bool

/-- FREE VALUE (log 52). Whether learning is on for a LEARN byte that is neither 0 nor 1 (R187 holds such a byte in OFFLINE,
where a step in flight still completes). A function of the byte. -/
opaque strayLearn : BitVec 8 → Bool

/-- R25: frames the transmit queue holds. -/
def txCapacity : Nat := 16

/-- R26: an optional frame joins while fewer frames than this are queued. -/
def optionalLimit : Nat := 12

/-- R32: frames the receive queue holds. -/
def rxCapacity : Nat := 16

/-- R189: records the request queue holds. -/
def requestCapacity : Nat := 8

/-- R190: records the notice queue holds. -/
def noticeCapacity : Nat := 32

/-- R58: entries a board holds. -/
def boardCapacity : Nat := 64

/-- R10: records the Offer List holds. -/
def offerCapacity : Nat := 4

/-- R72: CANCEL and RESOLVE JOB marks held. -/
def markCapacity : Nat := 128

/-- R125: DOCK marks held. -/
def dockMarkCapacity : Nat := 4

/-- R92, R148: run-list jobs and pending awards together. -/
def runCapacity : Nat := 4

end Sys2Proof.Config
end

