-- ==== Sys2Proof/Machine/Bytes.lean ====
section
/-! DEFINITION. Bytes and checks: how multi-byte fields are laid out (most significant byte first, 00_scope.md), and the
two checks, the CRC-16 of R22 and the CRC-32 of R82. -/

namespace Sys2Proof.Machine

/-- The low eight bits of a number as a byte. -/
def b8 (n : Nat) : Byte := BitVec.ofNat 8 n

/-- A number as two bytes, most significant first. -/
def be16 (n : Nat) : List Byte := [b8 (n / 256), b8 n]

/-- A 32-bit word as four bytes, most significant first. -/
def be32 (w : Word32) : List Byte :=
  [b8 (w.toNat / 16777216), b8 (w.toNat / 65536), b8 (w.toNat / 256), b8 w.toNat]

/-- Byte `i` of a payload or record as a number; 0 past its end. -/
def byteAt (l : List Byte) (i : Nat) : Nat := (l.getD i 0).toNat

/-- The two-byte field at byte `i`. -/
def wordAt (l : List Byte) (i : Nat) : Nat := byteAt l i * 256 + byteAt l (i + 1)

/-- The four-byte field at byte `i`. -/
def wideAt (l : List Byte) (i : Nat) : Word32 := BitVec.ofNat 32 (wordAt l i * 65536 + wordAt l (i + 2))

/-- One bit of the CRC-16 register, polynomial x^16 + x^12 + x^5 + 1 (R22). -/
def crc16Bit (r : Word16) : Word16 := if r.msb then (r <<< 1) ^^^ 0x1021#16 else r <<< 1

/-- One byte into the CRC-16 register, most significant bit first (R22). -/
def crc16Byte (r : Word16) (b : Byte) : Word16 :=
  Nat.repeat crc16Bit 8 (r ^^^ (b.zeroExtend 16 <<< 8))

/-- The CRC-16 of R22: register set to all ones, not inverted at the end. -/
def crc16 (l : List Byte) : Word16 := l.foldl crc16Byte 0xFFFF#16

/-- One bit of the CRC-32 register, polynomial 0x04C11DB7 in its reflected form (R82). -/
def crc32Bit (r : Word32) : Word32 := if r.getLsbD 0 then (r >>> 1) ^^^ 0xEDB88320#32 else r >>> 1

/-- One byte into the CRC-32 register, least significant bit first (R82). -/
def crc32Byte (r : Word32) (b : Byte) : Word32 := Nat.repeat crc32Bit 8 (r ^^^ b.zeroExtend 32)

/-- The CRC-32 of R82: register set to all ones, inverted at the end. -/
def crc32 (l : List Byte) : Word32 := ~~~ l.foldl crc32Byte 0xFFFFFFFF#32

end Sys2Proof.Machine
end

