-- ==== Sys2Proof/Machine/ProfileTable.lean ====
section
/-! DEFINITION. The configuration block's bytes and the profile table computed from them (R105, R106, R187): what
State.reset needs of both. -/

namespace Sys2Proof.Machine

/-- The configuration block: 66 bytes, each held as last written (R187). -/
abbrev ConfigBlock := Vector Byte 66

/-- The profile table: entry 64c + k is H[c][k], entry 64c + 32 + d is V[c][d] (R105). -/
abbrev ProfileTable := Vector Nat 256

/-- One byte of the configuration block as a number. -/
def ConfigBlock.byte (cfg : ConfigBlock) (i : Nat) : Nat := (cfg[i]?.getD 0).toNat

/-- A two-byte field of the configuration block. -/
def ConfigBlock.word (c : ConfigBlock) (i : Nat) : Nat := c.byte i * 256 + c.byte (i + 1)

/-- R106: a computed or corrected time is held at 65534 above and at 1 below. -/
def holdTime (n : Nat) : Nat := if n > 65534 then 65534 else if n < 1 then 1 else n

/-- R106: the profile entry of class `c` numbered `k` in its row (0–31 horizontal, 32–63 vertical), from the profile
parameters Hstart, Hstep, Vstart and Vstep of that class. -/
def ConfigBlock.profileEntry (cfg : ConfigBlock) (c k : Nat) : Nat :=
  if k < 32 then holdTime (cfg.word (0x18 + 2 * c) + k * cfg.word (0x20 + 2 * c))
  else holdTime (cfg.word (0x28 + 2 * c) + (k - 32) * cfg.word (0x30 + 2 * c))

/-- R106: the table with the row of each class in `classes` computed from the parameters, the others as they stand. -/
def ConfigBlock.recompute (cfg : ConfigBlock) (classes : List Nat) (t : ProfileTable) : ProfileTable :=
  ⟨((List.range 256).map fun i =>
      if classes.contains (i / 64) then cfg.profileEntry (i / 64) (i % 64) else t[i]?.getD 1).toArray, by simp⟩

/-- R106: the whole table computed from the parameters. -/
def ConfigBlock.profile (cfg : ConfigBlock) : ProfileTable :=
  ⟨((List.range 256).map fun i => cfg.profileEntry (i / 64) (i % 64)).toArray, by simp⟩

/-- R106, R187: the defaults of the configuration block. -/
def ConfigBlock.default : ConfigBlock :=
  ⟨([0, 1, 0, 3, 1, 8, 0] ++ List.replicate 12 (0 : Byte)
    ++ be16 250 ++ be16 80 ++ [5]
    ++ be16 40 ++ be16 45 ++ be16 50 ++ be16 60
    ++ be16 20 ++ be16 22 ++ be16 25 ++ be16 30
    ++ be16 60 ++ be16 70 ++ be16 80 ++ be16 95
    ++ be16 18 ++ be16 20 ++ be16 24 ++ be16 30
    ++ be16 600 ++ be16 550 ++ be16 250
    ++ [10, 2, 1, 1]).toArray, by simp [be16]⟩

end Sys2Proof.Machine
end

