-- ==== Sys2Proof/Machine/State.lean ====
section
/-! DEFINITION. The state of one EA12 station, block by block (00_scope.md, Blocks), as plain data, and its values after
reset. Lists keyed by a number are held in ascending order of that number, so that equal tables are equal data. -/

namespace Sys2Proof.Machine

/-! ## Common parts -/

/-- A timer (00_scope.md, Time): not running, running until a moment of the clock, or expired and standing so. -/
inductive Timer where
  | stopped
  | running (expiry : Nat)
  | expired
deriving DecidableEq, Repr

/-- The role of a station (R40). -/
inductive Role where
  | crane
  | dispatch
deriving DecidableEq, Repr

/-- The end of a crane (R6); absent for a dispatch station. -/
inductive CraneEnd where
  | absent
  | low
  | high
  | sole
deriving DecidableEq, Repr

/-! ## Link Controller (02_the_floor_link.md) -/

/-- The sixteen kinds of frame (R23). -/
inductive FrameKind where
  | join
  | leave
  | lost
  | digest
  | offer
  | bid
  | award
  | progress
  | cancel
  | dock
  | resolve
  | boundary
  | syncAsk
  | snapHead
  | snapItem
  | snapEnd
deriving DecidableEq, Repr

/-- A complete frame as the board-side blocks take it (R21): header fields and payload, the check already judged. -/
structure Frame where
  sender : Station
  kind : FrameKind
  sequence : Nat
  payload : List Byte
deriving DecidableEq, Repr

/-- How a queued frame's payload comes about when it starts (R25, R175, R177). -/
inductive Fill where
  /-- Made with the frame; filled no further. -/
  | fixed
  /-- A DIGEST, filled at every start (R49). -/
  | digest
  /-- A SYNC_ASK of the given try (R172). -/
  | ask (tryNo : Nat)
  /-- The SNAP_HEAD of the serve of a requester (R175). -/
  | snapHead (requester : Station)
  /-- A NEXT frame of the serve of a requester: SNAP_ITEM or SNAP_END, decided at its start (R175). -/
  | snapNext (requester : Station)
  /-- A snapshot frame whose serve has ended: a SNAP_END of 65535 at its start (R177). -/
  | snapEnded (requester : Station)
deriving DecidableEq, Repr

/-- A frame of the transmit queue: the sequence is present once the frame has started (R25). -/
structure TxFrame where
  kind : FrameKind
  payload : List Byte
  sequence : Option Nat
  fill : Fill
deriving DecidableEq, Repr

/-- Whether a frame of this station holds the line (R25, R35, R36). -/
inductive LineUse where
  | free
  /-- The head of the transmit queue is on the line. -/
  | own
  /-- A frame that was on the line at a leaving runs to its end, under the number it was sent with (R36). -/
  | departed (sender : Station)
deriving DecidableEq, Repr

/-- The Link Controller's state. -/
structure Link where
  txq : List TxFrame
  rxq : List Frame
  line : LineUse
  ownSeq : Nat
  seqTable : Vector (Option Nat) 32
  lastSender : Nat
  collisions : Nat
  loss : Bool
  intervalFrom : Nat
deriving DecidableEq, Repr

/-! ## Membership Unit (03_membership_and_presence.md) -/

/-- The station states (R37). -/
inductive StationState where
  | offline
  | listening
  | syncing
  | active
  | draining
  | faulted
deriving DecidableEq, Repr

/-- The causes (R37). -/
inductive Cause where
  | none
  | reset
  | left
  | evicted
  | syncFailed
  | acknowledged
  | duplicate
  | paramMismatch
  | roleConflict
deriving DecidableEq, Repr

/-- The LEAVE frame's mark (R52): not yet set, set, or turned into a frame. -/
inductive LeaveFrame where
  | none
  | marked
  | queued
deriving DecidableEq, Repr

/-- The Membership Unit's state; the Roster is part of the replica. -/
structure Membership where
  st : StationState
  cause : Cause
  heard : List Station
  heardHash : List (Station × Word16)
  founding : Bool
  listenTimer : Timer
  presence : Timer
  silence : List (Station × Timer)
  joinMark : Bool
  leaveFrame : LeaveFrame
  lostMarks : List Station
  leaveMark : Bool
  hash : Option Word16
deriving DecidableEq, Repr

/-! ## The replica: Roster, Dock Table, Aisle Table, Job Board, signature -/

/-- A Roster item (R47): membership fields, then presence fields as last carried. -/
structure StationItem where
  number : Station
  role : Role
  aisle : Nat
  craneEnd : CraneEnd
  docks : List Nat
  backlog : Nat
  runLength : Nat
  pos : Nat
  level : Nat
  craneState : Nat
  draining : Bool
  syncing : Bool
deriving DecidableEq, Repr

/-- A dock record (R118). -/
structure DockRecord where
  number : Nat
  capacity : Nat
  free : Nat
  reserved : Nat
  occupied : Nat
  server : Option Station
deriving DecidableEq, Repr

/-- The form of an aisle record (R130). -/
inductive AisleForm where
  | sole
  | tandem
deriving DecidableEq, Repr

/-- The boundary state of an aisle record (R130). -/
inductive BoundaryState where
  | sole
  | frozen
  | set
deriving DecidableEq, Repr

/-- An aisle record (R130). -/
structure AisleRecord where
  aisle : Nat
  form : AisleForm
  low : Option Station
  high : Option Station
  sole : Option Station
  boundary : Option Nat
  state : BoundaryState
deriving DecidableEq, Repr

/-- A job record (R8) as an OFFER carries it (R24): the form bytes and the class and priority byte hold several fields in
their bits and are kept whole. -/
structure JobRecord where
  id : JobId
  kind : Nat
  aisle : Nat
  srcForm : Byte
  srcPos : Nat
  srcLevel : Nat
  dstForm : Byte
  dstPos : Nat
  dstLevel : Nat
  classPrio : Byte
  pred : JobId
deriving DecidableEq, Repr

/-- The states of a job entry (R60). -/
inductive JobState where
  | held
  | opened
  | awarded
  | active
  | stranded
  | done
  | failed
  | cancelled
  | rejected
deriving DecidableEq, Repr

/-- A bid of a bid list (R59). -/
structure Bid where
  bidder : Station
  cost : Nat
deriving DecidableEq, Repr

/-- A job entry (R59). The reason is its code of R61, 0 when absent. -/
structure JobEntry where
  job : JobRecord
  state : JobState
  attempt : Nat
  owner : Option Station
  loaded : Bool
  loadClass : Nat
  reason : Nat
  bids : List Bid
deriving DecidableEq, Repr

/-- The station's copy of the shared tables, with their signature (R82). -/
structure Replica where
  roster : List StationItem
  docks : List DockRecord
  aisles : List AisleRecord
  jobs : List JobEntry
  signature : Word32
deriving DecidableEq, Repr

/-- The key of an item of the replica, for the donor's sent marks (R169). -/
inductive ItemKey where
  | station (number : Station)
  | dock (number : Nat)
  | aisle (number : Nat)
  | job (id : JobId)
deriving DecidableEq, Repr

/-! ## Job Board, local part (01_jobs_locations_and_reach.md, 04_the_job_board.md) -/

/-- A record of the Offer List (R10, R13): a job record and whether its OFFER has been queued. -/
structure OfferItem where
  job : JobRecord
  queued : Bool
deriving DecidableEq, Repr

/-- A CANCEL mark or a RESOLVE mark of form JOB (R72). -/
inductive BoardMark where
  | cancel (job : JobId)
  | resolve (job : JobId) (outcome : Nat)
deriving DecidableEq, Repr

/-- The Job Board's local state. -/
structure BoardLocal where
  offers : List OfferItem
  seqCounter : Nat
  marks : List BoardMark
deriving DecidableEq, Repr

/-! ## Allotment Engine (05_bidding_and_award.md) -/

/-- A bid window (R85). -/
inductive Window where
  | closed
  | running (expiry : Nat)
deriving DecidableEq, Repr

/-- The station's own bid for an attempt (R85). -/
inductive OwnBid where
  | none
  | queued
  | sent
deriving DecidableEq, Repr

/-- The custodial timer (R85, R97). -/
inductive CustodialTimer where
  | none
  | awardTimeout (expiry : Nat)
  | reofferWait (expiry : Nat)
deriving DecidableEq, Repr

/-- The custodial mark (R85, R98): RE_OFFER with the attempt to carry, or EXHAUST; its age, and whether its frame is
queued. -/
inductive CustodialMark where
  | none
  | reOffer (attempt stamp : Nat) (queued : Bool)
  | exhaust (stamp : Nat) (queued : Bool)
deriving DecidableEq, Repr

/-- An allotment record (R85). -/
structure AllotRecord where
  job : JobId
  attempt : Nat
  window : Window
  ownBid : OwnBid
  timer : CustodialTimer
  mark : CustodialMark
deriving DecidableEq, Repr

/-! ## Boundary Unit (08_aisle_boundaries.md) -/

/-- The own ask (R136), with the station it concerns (R144). -/
inductive OwnAsk where
  | none
  | sending (value : Nat) (peer : Station)
  | waiting (value : Nat) (peer : Station)
deriving DecidableEq, Repr

/-- The partner ask (R136), with the station it concerns (R144). -/
inductive PartnerAsk where
  | none
  | deferred (value : Nat) (peer : Station)
  | granting (value : Nat) (peer : Station)
  | held (value : Nat) (peer : Station)
deriving DecidableEq, Repr

/-- The answer mark (R136): GRANT or REFUSE with value and reason (R138), the station it answers (R144), and its age. -/
inductive AnswerMark where
  | none
  | grant (value : Nat) (peer : Station) (stamp : Nat)
  | refuse (value reason : Nat) (peer : Station) (stamp : Nat)
deriving DecidableEq, Repr

/-- The Boundary Unit's local state; the Aisle Table is part of the replica. -/
structure BoundaryUnit where
  ownAsk : OwnAsk
  partnerAsk : PartnerAsk
  askMark : Option Nat
  answer : AnswerMark
  reAsk : Timer
  lastWaited : Option JobId
  resolveMarks : List (Nat × Nat)
deriving DecidableEq, Repr

/-! ## Step Sequencer (09_run_list_steps_and_crane_reports.md) -/

/-- The phases of a run-list job (R153). -/
inductive Phase where
  | waiting
  | toSource
  | picking
  | toDest
  | dropping
  | finishing
deriving DecidableEq, Repr

/-- A milestone mark (R165): the milestone and detail of R67, and its age. -/
structure MilestoneMark where
  milestone : Nat
  detail : Nat
  stamp : Nat
deriving DecidableEq, Repr

/-- A run-list job (R148). -/
structure RunJob where
  id : JobId
  urgent : Bool
  phase : Phase
  remaining : Nat
  loaded : Bool
  loadClass : Nat
  marks : List MilestoneMark
  finalSent : Bool
deriving DecidableEq, Repr

/-- The mode of an AWARD (R93). -/
inductive AwardMode where
  | bid
  | chain
deriving DecidableEq, Repr

/-- A pending award (R92). -/
structure PendingAward where
  job : JobId
  mode : AwardMode
  attempt : Nat
deriving DecidableEq, Repr

/-- The crane states (R152). -/
inductive CraneState where
  | unknown
  | idle
  | stepping
  | stalled
  | manual
  | outOfService
deriving DecidableEq, Repr

/-- The stall causes (R152). -/
inductive StallCause where
  | none
  | overdue
  | labelMismatch
  | pathBlocked
  | orphanLoad
  | conflict
deriving DecidableEq, Repr

/-- What a step has the crane do (R153). Side is 0 LEFT, 1 RIGHT, 3 dock and depth 0 FRONT, 1 REAR, 3 dock (R192). -/
inductive StepAct where
  | travel (pos level : Nat)
  | pick (side depth : Nat) (label : Bool) (expected : Nat)
  | drop (side depth : Nat) (label : Bool)
deriving DecidableEq, Repr

/-- The status of a current step (R152). -/
inductive StepStatus where
  | outstanding
  | overdue
  | held
  | ended
deriving DecidableEq, Repr

/-- A step (R152), with its timer's expiry (R155), the load class its estimate was taken with, the profile entry that
decided it (R116) and whether it was issued as a yield step (R140). -/
structure Step where
  id : Nat
  act : StepAct
  job : Option JobId
  estimate : Nat
  issueTime : Nat
  first : Bool
  status : StepStatus
  expiry : Nat
  loadClass : Nat
  entry : Option Nat
  yield : Bool
deriving DecidableEq, Repr

/-- The crane record (R152). The set-aside step keeps its retry count (R154). -/
structure Crane where
  state : CraneState
  pos : Nat
  level : Nat
  load : Option JobId
  step : Option Step
  retry : Nat
  stall : StallCause
  nextId : Nat
  setAside : Option (Step × Nat)
deriving DecidableEq, Repr

/-- The Step Sequencer's state. -/
structure Sequencer where
  runList : List RunJob
  awards : List PendingAward
  crane : Crane
deriving DecidableEq, Repr

/-! ## Consistency Monitor (10_digest_and_resynchronisation.md) -/

/-- The requester's phase (R169). -/
inductive SyncPhase where
  | none
  | asking
  | asked
  | receiving
deriving DecidableEq, Repr

/-- The snapshot mark (R169). -/
inductive SnapMark where
  | none
  | head
  | next
deriving DecidableEq, Repr

/-- The Consistency Monitor's state (R169). -/
structure Consistency where
  mismatch : Nat
  phase : SyncPhase
  candidates : List Station
  donor : Option Station
  tryNo : Nat
  itemsApplied : Nat
  snapTimer : Timer
  serving : Option Station
  sent : List ItemKey
  itemsSent : Nat
  mark : SnapMark
deriving DecidableEq, Repr

/-! ## Local Port (11_the_local_port.md) -/

/-- The transaction in progress (R184): its access, the address at which it started, the address pointer after its last data
byte, and whether it is void. -/
structure Transaction where
  write : Bool
  start : Nat
  pointer : Nat
  void : Bool
deriving DecidableEq, Repr

/-- The Local Port's state but for the configuration block. -/
structure Port where
  asm : List Byte
  discard : Bool
  requests : List (List Byte)
  notices : List (List Byte)
  noticePos : Nat
  noticeOverflow : Bool
  requestOverflow : Bool
  requestTorn : Bool
  stateChange : Bool
  locked : Bool
  enable : Byte
  txn : Option Transaction
  touched : List Nat
  firstByte : Option (Nat × Byte)
  captured : List (Nat × List Byte)
  resetHeld : Bool
  dataOut : Byte
deriving DecidableEq, Repr

/-! ## The station -/

/-- One EA12 station, and the queue of the commands that wait (first in, first out). `pending`, `now` (milliseconds),
`fresh` and `stamp` are the model's own fields. -/
structure State where
  pending : List Instr
  now : Nat
  fresh : Nat
  stamp : Nat
  link : Link
  mem : Membership
  rep : Replica
  board : BoardLocal
  allot : List AllotRecord
  profile : ProfileTable
  dockMarks : List (Nat × Nat)
  bnd : BoundaryUnit
  seqr : Sequencer
  cons : Consistency
  cfg : ConfigBlock
  port : Port
deriving DecidableEq, Repr

/-- Why the machine stops with a fault: no command does (every row of the table has an effect, a refusal notice, or no
effect), so there is no reason. -/
inductive Fault where
deriving DecidableEq, Repr

/-- Why a command has no meaning. -/
inductive Refusal where
  /-- Raised by an arm of exec whose command has no meaning yet; safe. No arm raises it now. -/
  | notModelled (mnemonic : String)
deriving DecidableEq, Repr

/-! ## Values after reset -/

/-- R36: the Link Controller after reset or leaving; `now` is the moment the reset or leaving ended (R17). -/
def Link.cleared (now : Nat) : Link where
  txq := []
  rxq := []
  line := .free
  ownSeq := 0
  seqTable := Vector.replicate 32 none
  lastSender := 0
  collisions := 0
  loss := false
  intervalFrom := now

/-- R57: the Membership Unit after reset or leaving, with the cause of the ending. -/
def Membership.cleared (cause : Cause) : Membership where
  st := .offline
  cause := cause
  heard := []
  heardHash := []
  founding := false
  listenTimer := .stopped
  presence := .stopped
  silence := []
  joinMark := false
  leaveFrame := .none
  lostMarks := []
  leaveMark := false
  hash := none

/-- R57, R84, R129, R147: the emptied replica; the signature is 0. -/
def Replica.empty : Replica where
  roster := []
  docks := []
  aisles := []
  jobs := []
  signature := 0

/-- R147: the Boundary Unit after reset or leaving. -/
def BoundaryUnit.cleared : BoundaryUnit where
  ownAsk := .none
  partnerAsk := .none
  askMark := none
  answer := .none
  reAsk := .stopped
  lastWaited := none
  resolveMarks := []

/-- R152: the crane record's reset values. -/
def Crane.initial : Crane where
  state := .unknown
  pos := 0
  level := 0
  load := none
  step := none
  retry := 0
  stall := .none
  nextId := 0
  setAside := none

/-- R169: the Consistency Monitor after reset or leaving; the try is log 5's value. -/
def Consistency.cleared : Consistency where
  mismatch := 0
  phase := .none
  candidates := []
  donor := none
  tryNo := 0
  itemsApplied := 0
  snapTimer := .stopped
  serving := none
  sent := []
  itemsSent := 0
  mark := .none

/-- R194: the Local Port after reset, with no transaction in progress. -/
def Port.cleared : Port where
  asm := []
  discard := false
  requests := []
  notices := []
  noticePos := 0
  noticeOverflow := false
  requestOverflow := false
  requestTorn := false
  stateChange := false
  locked := false
  enable := 0
  txn := none
  touched := []
  firstByte := none
  captured := []
  resetHeld := false
  dataOut := 0

/-- The station right after reset (R36, R57, R84, R104, R117, R129, R147, R168, R169, R194), the RESET pin released and
no command waiting. -/
def State.reset : State where
  pending := []
  now := 0
  fresh := 0
  stamp := 0
  link := Link.cleared 0
  mem := Membership.cleared .reset
  rep := Replica.empty
  board := { offers := [], seqCounter := 0, marks := [] }
  allot := []
  profile := ConfigBlock.default.profile
  dockMarks := []
  bnd := BoundaryUnit.cleared
  seqr := { runList := [], awards := [], crane := Crane.initial }
  cons := Consistency.cleared
  cfg := ConfigBlock.default
  port := Port.cleared

end Sys2Proof.Machine
end

