-- ==== Sys2Proof/Machine/Operands.lean ====
section
/-! DEFINITION. The operand forms: the codes of the window, the notices and the frames (R23, R37, R81, R192), the fields of
the configuration block (R187), the bits of a job record (R24), and the canonical bytes of every item of the replica, both
ways (R47, R81, R120, R131, R176). -/

namespace Sys2Proof.Machine

/-! ## Codes -/

/-- R192. -/
def StationState.code : StationState → Nat
  | .offline => 0 | .listening => 1 | .syncing => 2 | .active => 3 | .draining => 4 | .faulted => 5

/-- R192. -/
def Cause.code : Cause → Nat
  | .none => 0 | .reset => 1 | .left => 2 | .evicted => 3 | .syncFailed => 4 | .acknowledged => 5 | .duplicate => 6
  | .paramMismatch => 7 | .roleConflict => 8

/-- R23. -/
def FrameKind.code : FrameKind → Nat
  | .join => 1 | .leave => 2 | .lost => 3 | .digest => 4 | .offer => 5 | .bid => 6 | .award => 7 | .progress => 8
  | .cancel => 9 | .dock => 10 | .resolve => 11 | .boundary => 12 | .syncAsk => 13 | .snapHead => 14 | .snapItem => 15
  | .snapEnd => 16

/-- R23: the kind of a kind code; none outside 1–16. -/
def FrameKind.ofCode : Nat → Option FrameKind
  | 1 => some .join | 2 => some .leave | 3 => some .lost | 4 => some .digest | 5 => some .offer | 6 => some .bid
  | 7 => some .award | 8 => some .progress | 9 => some .cancel | 10 => some .dock | 11 => some .resolve
  | 12 => some .boundary | 13 => some .syncAsk | 14 => some .snapHead | 15 => some .snapItem | 16 => some .snapEnd
  | _ => none

/-- R23: the payload lengths a kind allows. -/
def FrameKind.allows (k : FrameKind) (n : Nat) : Bool :=
  match k with
  | .join => n == 9 || n == 12 || n == 15 || n == 18 || n == 21
  | .leave => n == 0
  | .lost => n == 1
  | .digest => n == 13
  | .offer => n == 14
  | .bid => n == 5
  | .award => n == 6
  | .progress => n == 4
  | .cancel => n == 2
  | .dock => n == 2
  | .resolve => n == 4 || n == 3
  | .boundary => n == 4
  | .syncAsk => n == 1
  | .snapHead => n == 1
  | .snapItem => 3 ≤ n && n ≤ 32
  | .snapEnd => n == 7

/-- R26: the optional kinds; every other kind is obligatory (R27). -/
def FrameKind.optional : FrameKind → Bool
  | .bid | .award | .digest | .syncAsk => true
  | _ => false

/-- R44, R192. -/
def Role.code : Role → Nat
  | .crane => 1 | .dispatch => 2

/-- R44. -/
def Role.ofCode : Nat → Option Role
  | 1 => some .crane | 2 => some .dispatch | _ => none

/-- R44, R47. -/
def CraneEnd.code : CraneEnd → Nat
  | .absent => 0 | .low => 1 | .high => 2 | .sole => 3

/-- R44, R47. -/
def CraneEnd.ofCode : Nat → Option CraneEnd
  | 0 => some .absent | 1 => some .low | 2 => some .high | 3 => some .sole | _ => none

/-- R81. -/
def JobState.code : JobState → Nat
  | .held => 1 | .opened => 2 | .awarded => 3 | .active => 4 | .stranded => 5 | .done => 6 | .failed => 7
  | .cancelled => 8 | .rejected => 9

/-- R81. -/
def JobState.ofCode : Nat → Option JobState
  | 1 => some .held | 2 => some .opened | 3 => some .awarded | 4 => some .active | 5 => some .stranded | 6 => some .done
  | 7 => some .failed | 8 => some .cancelled | 9 => some .rejected | _ => none

/-- R131. -/
def AisleForm.code : AisleForm → Nat
  | .sole => 1 | .tandem => 2

/-- R131. -/
def AisleForm.ofCode : Nat → Option AisleForm
  | 1 => some .sole | 2 => some .tandem | _ => none

/-- R131. -/
def BoundaryState.code : BoundaryState → Nat
  | .sole => 1 | .frozen => 2 | .set => 3

/-- R131. -/
def BoundaryState.ofCode : Nat → Option BoundaryState
  | 1 => some .sole | 2 => some .frozen | 3 => some .set | _ => none

/-- R152. -/
def CraneState.code : CraneState → Nat
  | .unknown => 0 | .idle => 1 | .stepping => 2 | .stalled => 3 | .manual => 4 | .outOfService => 5

/-- R192. -/
def StallCause.code : StallCause → Nat
  | .none => 0 | .overdue => 1 | .labelMismatch => 2 | .pathBlocked => 3 | .orphanLoad => 4 | .conflict => 5

/-- R185: status of the current step. -/
def StepStatus.code : StepStatus → Nat
  | .outstanding => 1 | .overdue => 2 | .held => 3 | .ended => 4

/-- R192. -/
def SyncPhase.code : SyncPhase → Nat
  | .none => 0 | .asking => 1 | .asked => 2 | .receiving => 3

/-- R192. -/
def Phase.code : Phase → Nat
  | .waiting => 0 | .toSource => 1 | .picking => 2 | .toDest => 3 | .dropping => 4 | .finishing => 5

/-- R93, R192. -/
def AwardMode.code : AwardMode → Nat
  | .bid => 1 | .chain => 2

/-- R191's catalogue: the kind byte of a STEP notice's step. -/
def StepAct.code : StepAct → Nat
  | .travel .. => 1 | .pick .. => 2 | .drop .. => 3

/-- A truth value as a byte's number. -/
def bit (b : Bool) : Nat := if b then 1 else 0

/-- An optional number as carried: 0 when absent. -/
def orZero (o : Option Nat) : Nat := o.getD 0

/-- An optional number from its carried form: absent when 0. -/
def zeroAbsent (n : Nat) : Option Nat := if n = 0 then none else some n

/-! ## Fields of the configuration block (R187) -/

/-- Station number. -/
def ConfigBlock.number (c : ConfigBlock) : Nat := c.byte 0x00
/-- Role byte. -/
def ConfigBlock.roleByte (c : ConfigBlock) : Nat := c.byte 0x01
/-- Aisle (crane). -/
def ConfigBlock.aisle (c : ConfigBlock) : Nat := c.byte 0x02
/-- End (crane); absent for a code outside 1–3. -/
def ConfigBlock.craneEnd (c : ConfigBlock) : CraneEnd := (CraneEnd.ofCode (c.byte 0x03)).getD .absent
/-- Rated class (crane). -/
def ConfigBlock.rated (c : ConfigBlock) : Nat := c.byte 0x04
/-- Home boundary (LOW, HIGH). -/
def ConfigBlock.home (c : ConfigBlock) : Nat := c.byte 0x05
/-- Served dock count (dispatch). -/
def ConfigBlock.dockCount (c : ConfigBlock) : Nat := c.byte 0x06
/-- Presence interval P in milliseconds. -/
def ConfigBlock.pTime (c : ConfigBlock) : Nat := c.word 0x13
/-- Bid window W in milliseconds. -/
def ConfigBlock.wTime (c : ConfigBlock) : Nat := c.word 0x15
/-- Re-offer interval Q in seconds. -/
def ConfigBlock.qTime (c : ConfigBlock) : Nat := c.byte 0x17
/-- PickTime in cost units. -/
def ConfigBlock.pickTime (c : ConfigBlock) : Nat := c.word 0x38
/-- DropTime in cost units. -/
def ConfigBlock.dropTime (c : ConfigBlock) : Nat := c.word 0x3A
/-- RearExtra in cost units. -/
def ConfigBlock.rearExtra (c : ConfigBlock) : Nat := c.word 0x3C
/-- Margin M in seconds. -/
def ConfigBlock.margin (c : ConfigBlock) : Nat := c.byte 0x3E
/-- Retry limit. -/
def ConfigBlock.retryLimit (c : ConfigBlock) : Nat := c.byte 0x3F
/-- LEARN byte. -/
def ConfigBlock.learn (c : ConfigBlock) : Nat := c.byte 0x40
/-- Notice threshold. -/
def ConfigBlock.threshold (c : ConfigBlock) : Nat := c.byte 0x41

/-- The served docks read: number, capacity, occupied of the first served-dock-count entries (R187). -/
def ConfigBlock.docks (c : ConfigBlock) : List (Nat × Nat × Nat) :=
  (List.range (min c.dockCount 4)).map fun i => (c.byte (7 + 3 * i), c.byte (8 + 3 * i), c.byte (9 + 3 * i))

/-- Whether the station is a dispatch station (R40); the free value of log 7 for a role byte that names no role. -/
def ConfigBlock.isDispatch (c : ConfigBlock) : Bool :=
  if c.roleByte = 2 then true else if c.roleByte = 1 then false else Config.strayRole (b8 c.roleByte)

/-- R39: the canonical bytes of the link parameter set. -/
def ConfigBlock.paramBytes (c : ConfigBlock) : List Byte := be16 c.pTime ++ be16 c.wTime ++ [b8 c.qTime]

/-- R39: the parameter hash. -/
def ConfigBlock.paramHash (c : ConfigBlock) : Word16 := crc16 c.paramBytes

/-! ## Rail geometry (R1, R6, R134) -/

/-- R1: the segment of a rail position. -/
def segment (pos : Nat) : Nat := pos / 8

/-- R6: the segments in reach of an end. -/
def CraneEnd.reaches : CraneEnd → Nat → Bool
  | .sole, seg => seg ≤ 15
  | .low, seg => seg ≤ 13
  | .high, seg => 2 ≤ seg && seg ≤ 15
  | .absent, _ => false

/-- R134: the segments of an end's side of boundary `b`. -/
def CraneEnd.ownSide : CraneEnd → Nat → Nat → Bool
  | .sole, _, _ => true
  | .low, b, seg => seg < b
  | .high, b, seg => b < seg
  | .absent, _, _ => false

/-- The other end of a tandem aisle. -/
def CraneEnd.opposite : CraneEnd → CraneEnd
  | .low => .high | .high => .low | .sole => .absent | .absent => .absent

/-- Whether an end is one of a tandem aisle (R6). -/
def CraneEnd.tandem : CraneEnd → Bool
  | .low | .high => true
  | _ => false

/-! ## The job record (R8, R24) -/

/-- R24: bit 0 of a form byte: the endpoint is a dock. -/
def formDock (f : Byte) : Bool := f.getLsbD 0
/-- R24, R192: bit 1 of a form byte: the side, 0 LEFT or 1 RIGHT. -/
def formSide (f : Byte) : Nat := bit (f.getLsbD 1)
/-- R24, R192: bit 2 of a form byte: the depth, 0 FRONT or 1 REAR. -/
def formDepth (f : Byte) : Nat := bit (f.getLsbD 2)

/-- R8: the origin of a job id. -/
def origin (id : JobId) : Station := id / 2048

/-- R8: kind STORE. -/
def JobRecord.isStore (j : JobRecord) : Bool := j.kind == 1
/-- R8: kind RETRIEVE. -/
def JobRecord.isRetrieve (j : JobRecord) : Bool := j.kind == 2
/-- R24: the weight class, bits 0–1 of byte 11. -/
def JobRecord.weight (j : JobRecord) : Nat := j.classPrio.toNat % 4
/-- R24: bit 7 of byte 11: URGENT. -/
def JobRecord.urgent (j : JobRecord) : Bool := j.classPrio.getLsbD 7

/-- R118: the dock of a RETRIEVE job, from its aisle and destination rail position. -/
def JobRecord.dockNumber (j : JobRecord) : Nat := j.aisle * 2 + (if j.dstPos = 127 then 1 else 0)

/-- R7: the end a job requires: that of its source dock (STORE) or destination dock (RETRIEVE). DESIGN CHOICE: a dock endpoint
carried with a rail position that is neither 0 nor 127 requires LOW (log 11). -/
def JobRecord.requiredEnd (j : JobRecord) : CraneEnd :=
  if j.isStore then (if j.srcPos = 127 then .high else .low)
  else if j.isRetrieve then (if j.dstPos = 127 then .high else .low)
  else .absent

/-- R7: a crane end fits a job. -/
def JobRecord.fits (j : JobRecord) (e : CraneEnd) : Bool :=
  match e with
  | .sole => true
  | .low | .high => j.requiredEnd == .absent || j.requiredEnd == e
  | .absent => false

/-- R6: source and destination are both within reach of an end. -/
def JobRecord.within (j : JobRecord) (e : CraneEnd) : Bool :=
  e.reaches (segment j.srcPos) && e.reaches (segment j.dstPos)

/-- R7: reachable in a tandem aisle. -/
def JobRecord.reachableTandem (j : JobRecord) : Bool :=
  match j.requiredEnd with
  | .absent => j.within .low || j.within .high
  | e => j.within e

/-- R3: the rack locations of a job: side, rail position and level of each endpoint of form RACK. -/
def JobRecord.racks (j : JobRecord) : List (Nat × Nat × Nat) :=
  (if formDock j.srcForm then [] else [(formSide j.srcForm, j.srcPos, j.srcLevel)])
    ++ (if formDock j.dstForm then [] else [(formSide j.dstForm, j.dstPos, j.dstLevel)])

/-- R3: some rack location of the one conflicts with some rack location of the other. -/
def JobRecord.conflicts (a b : JobRecord) : Bool :=
  a.aisle == b.aisle && a.racks.any fun r => b.racks.contains r

/-- R111: the number of rack endpoints whose depth is REAR. -/
def JobRecord.rearCount (j : JobRecord) : Nat :=
  (if !formDock j.srcForm && formDepth j.srcForm == 1 then 1 else 0)
    + (if !formDock j.dstForm && formDepth j.dstForm == 1 then 1 else 0)

/-- R81: bytes 3–13 of the OFFER payload. -/
def JobRecord.bytes (j : JobRecord) : List Byte :=
  [b8 j.kind, b8 j.aisle, j.srcForm, b8 j.srcPos, b8 j.srcLevel, j.dstForm, b8 j.dstPos, b8 j.dstLevel, j.classPrio]
    ++ be16 j.pred

/-- R24: a job record from its id and the bytes that follow at `i`. -/
def JobRecord.ofBytes (id : JobId) (l : List Byte) (i : Nat) : JobRecord where
  id := id
  kind := byteAt l i
  aisle := byteAt l (i + 1)
  srcForm := l.getD (i + 2) 0
  srcPos := byteAt l (i + 3)
  srcLevel := byteAt l (i + 4)
  dstForm := l.getD (i + 5) 0
  dstPos := byteAt l (i + 6)
  dstLevel := byteAt l (i + 7)
  classPrio := l.getD (i + 8) 0
  pred := wordAt l (i + 9)

/-- R24: the OFFER payload. -/
def JobRecord.offer (j : JobRecord) (attempt : Nat) : List Byte := be16 j.id ++ [b8 attempt] ++ j.bytes

/-! ## Entries -/

/-- R59: the live states. -/
def JobState.live : JobState → Bool
  | .held | .opened | .awarded | .active | .stranded => true
  | _ => false

/-- R60: the states in which an entry has an owner. -/
def JobState.owned : JobState → Bool
  | .awarded | .active | .stranded => true
  | _ => false

/-- R148: the entry is AWARDED or ACTIVE with the given owner. -/
def JobEntry.runBy (e : JobEntry) (me : Station) : Bool :=
  (e.state == .awarded || e.state == .active) && e.owner == some me

/-! ## Canonical bytes -/

/-- R81, item 7: load class in bits 0–1, loaded in bit 2, the number of bids in bits 3–5, the rest 0 (log 9). -/
def JobEntry.flags (e : JobEntry) : Nat := e.loadClass % 4 + 4 * bit e.loaded + 8 * (e.bids.length % 8)

/-- R81: the canonical bytes of a job entry. -/
def JobEntry.bytes (e : JobEntry) : List Byte :=
  be16 e.job.id ++ e.job.bytes
    ++ [b8 e.state.code, b8 e.attempt, b8 (orZero e.owner), b8 e.reason, b8 e.flags]
    ++ e.bids.flatMap fun b => b8 b.bidder :: be16 b.cost

/-- R47: the canonical bytes of a station item. -/
def StationItem.bytes (t : StationItem) : List Byte :=
  [b8 t.number, b8 t.role.code, b8 t.aisle, b8 t.craneEnd.code, b8 t.docks.length] ++ t.docks.map b8

/-- R176: a flags byte: DRAINING in bit 0, SYNCING in bit 1 (for a DIGEST, log 8). -/
def presenceFlags (draining syncing : Bool) : Nat := bit draining + 2 * bit syncing

/-- R176: the presence fields of a station item as a SNAP_ITEM and the roster view carry them. -/
def StationItem.presence (t : StationItem) : List Byte :=
  be16 t.backlog ++ [b8 t.runLength, b8 t.pos, b8 t.level, b8 t.craneState, b8 (presenceFlags t.draining t.syncing)]

/-- R120: the canonical bytes of a dock record. -/
def DockRecord.bytes (d : DockRecord) : List Byte :=
  [b8 d.number, b8 d.capacity, b8 d.free, b8 d.reserved, b8 d.occupied, b8 (orZero d.server)]

/-- R131: the canonical bytes of an aisle record. -/
def AisleRecord.bytes (a : AisleRecord) : List Byte :=
  [b8 a.aisle, b8 a.form.code, b8 (orZero a.low), b8 (orZero a.high), b8 (orZero a.sole), b8 (orZero a.boundary),
    b8 a.state.code]

/-! ## Items from a SNAP_ITEM (R176, R178) -/

/-- An item carried by a SNAP_ITEM. -/
inductive Item where
  | station (t : StationItem)
  | dock (d : DockRecord)
  | aisle (a : AisleRecord)
  | job (e : JobEntry)
deriving DecidableEq, Repr

/-- R176, type 1: 14 to 18 bytes with the served dock count; key 1–31 (R178). -/
def Item.readStation (p : List Byte) : Option Item :=
  let n := byteAt p 6
  match Role.ofCode (byteAt p 3), CraneEnd.ofCode (byteAt p 5) with
  | some role, some craneEnd =>
    if p.length = 14 + n ∧ n ≤ 4 ∧ 1 ≤ byteAt p 2 ∧ byteAt p 2 ≤ 31 then
      some (.station {
        number := byteAt p 2, role := role, aisle := byteAt p 4, craneEnd := craneEnd,
        docks := (List.range n).map fun i => byteAt p (7 + i),
        backlog := wordAt p (7 + n), runLength := byteAt p (9 + n), pos := byteAt p (10 + n),
        level := byteAt p (11 + n), craneState := byteAt p (12 + n),
        draining := (p.getD (13 + n) 0).getLsbD 0, syncing := (p.getD (13 + n) 0).getLsbD 1 })
    else none
  | _, _ => none

/-- R176, type 2: 8 bytes; key 0–15 (R178). -/
def Item.readDock (p : List Byte) : Option Item :=
  if p.length = 8 ∧ byteAt p 2 ≤ 15 then
    some (.dock {
      number := byteAt p 2, capacity := byteAt p 3, free := byteAt p 4, reserved := byteAt p 5,
      occupied := byteAt p 6, server := zeroAbsent (byteAt p 7) })
  else none

/-- R176, type 3: 9 bytes; key 0–7 (R178). -/
def Item.readAisle (p : List Byte) : Option Item :=
  match AisleForm.ofCode (byteAt p 3), BoundaryState.ofCode (byteAt p 8) with
  | some form, some state =>
    if p.length = 9 ∧ byteAt p 2 ≤ 7 then
      some (.aisle {
        aisle := byteAt p 2, form := form, low := zeroAbsent (byteAt p 4), high := zeroAbsent (byteAt p 5),
        sole := zeroAbsent (byteAt p 6), boundary := zeroAbsent (byteAt p 7), state := state })
    else none
  | _, _ => none

/-- R176, type 4: 20 bytes and three for each bid; key 1–65535 (R178). -/
def Item.readJob (p : List Byte) : Option Item :=
  let flags := byteAt p 19
  let n := flags / 8 % 8
  match JobState.ofCode (byteAt p 15) with
  | some state =>
    if p.length = 20 + 3 * n ∧ n ≤ 4 ∧ 1 ≤ wordAt p 2 then
      some (.job {
        job := JobRecord.ofBytes (wordAt p 2) p 4, state := state, attempt := byteAt p 16,
        owner := zeroAbsent (byteAt p 17), loaded := flags / 4 % 2 == 1, loadClass := flags % 4,
        reason := byteAt p 18,
        bids := (List.range n).map fun i => { bidder := byteAt p (20 + 3 * i), cost := wordAt p (21 + 3 * i) } })
    else none
  | none => none

/-- R176, R178: the item a SNAP_ITEM payload carries; none when its type lies outside 1–4 or its contents do not form an
item of its type (log 10). -/
def Item.read (p : List Byte) : Option Item :=
  match byteAt p 1 with
  | 1 => Item.readStation p
  | 2 => Item.readDock p
  | 3 => Item.readAisle p
  | 4 => Item.readJob p
  | _ => none

/-- R175, R176: the type and contents of an item in a SNAP_ITEM, after the requester's number. -/
def Item.contents : Item → List Byte
  | .station t => b8 1 :: (t.bytes ++ t.presence)
  | .dock d => b8 2 :: d.bytes
  | .aisle a => b8 3 :: a.bytes
  | .job e => b8 4 :: e.bytes

/-- The key of an item. -/
def Item.key : Item → ItemKey
  | .station t => .station t.number
  | .dock d => .dock d.number
  | .aisle a => .aisle a.aisle
  | .job e => .job e.job.id

/-! ## Frames on the line (R21, R22, R30) -/

/-- R21, R22: the bytes of a frame on the line, header, payload and check. -/
def Frame.wire (f : Frame) : List Byte :=
  let body := [b8 f.sender, b8 f.kind.code, b8 f.sequence, b8 f.payload.length] ++ f.payload
  body ++ be16 (crc16 body).toNat

/-- R21, R22, R30: a received frame is damaged by its byte 3, its length or its check. -/
def damaged (l : List Byte) : Bool :=
  byteAt l 3 > 32 || l.length != byteAt l 3 + 6 ||
    (crc16 (l.take (l.length - 2))).toNat != wordAt l (l.length - 2)

/-- R31: a frame that passes R30, or none when it is malformed. -/
def readFrame (l : List Byte) : Option Frame :=
  match FrameKind.ofCode (byteAt l 1) with
  | some kind =>
    if 1 ≤ byteAt l 0 ∧ byteAt l 0 ≤ 31 ∧ kind.allows (byteAt l 3) then
      some { sender := byteAt l 0, kind := kind, sequence := byteAt l 2, payload := (l.drop 4).take (byteAt l 3) }
    else none
  | none => none

/-! ## Notices (R190, 11.6) -/

/-- R190: a notice record: a length byte counting itself, the kind byte, the fields. -/
def noticeRecord (kind : Nat) (fields : List Byte) : List Byte := b8 (fields.length + 2) :: b8 kind :: fields

/-- STATE (1). -/
def noticeState (st : StationState) (cause : Cause) : List Byte := noticeRecord 1 [b8 st.code, b8 cause.code]
/-- ROSTER (2). -/
def noticeRoster (event station role reason : Nat) : List Byte :=
  noticeRecord 2 [b8 event, b8 station, b8 role, b8 reason]
/-- JOB (3). State code 0 is SUBMITTED. -/
def noticeJob (id : JobId) (state owner reason : Nat) : List Byte :=
  noticeRecord 3 (be16 id ++ [b8 state, b8 owner, b8 reason])
/-- STEP_OVERDUE (5). -/
def noticeOverdue (id : Nat) (job : JobId) (estimate : Nat) : List Byte :=
  noticeRecord 5 (b8 id :: (be16 job ++ be16 estimate))
/-- CRANE (6). -/
def noticeCrane (c : Crane) : List Byte :=
  noticeRecord 6 ([b8 c.state.code, b8 c.pos, b8 c.level] ++ be16 (orZero c.load) ++ [b8 c.stall.code])
/-- BOUNDARY_WAIT (7). -/
def noticeWait (job : JobId) (aisle boundary value reason : Nat) : List Byte :=
  noticeRecord 7 (be16 job ++ [b8 aisle, b8 boundary, b8 value, b8 reason])
/-- REFUSED (8). -/
def noticeRefused (kind code index subject : Nat) : List Byte :=
  noticeRecord 8 ([b8 kind, b8 code, b8 index] ++ be16 subject)
/-- CONFLICT (9). -/
def noticeConflict (job : JobId) (state owner : Nat) : List Byte :=
  noticeRecord 9 (be16 job ++ [b8 state, b8 owner])
/-- DOCK_UNDERFLOW (10). -/
def noticeUnderflow (dock freed occupied : Nat) : List Byte := noticeRecord 10 [b8 dock, b8 freed, b8 occupied]
/-- STRAY (11). -/
def noticeStray (kind named current status : Nat) : List Byte :=
  noticeRecord 11 [b8 kind, b8 named, b8 current, b8 status]
/-- EVICTED (12). -/
def noticeEvicted (sender : Station) : List Byte := noticeRecord 12 [b8 sender]
/-- CANCEL_LATE (13). -/
def noticeLate (job : JobId) (state : Nat) : List Byte := noticeRecord 13 (be16 job ++ [b8 state])

/-- R189: the refusal codes. -/
def wrongRole : Nat := 1
/-- R189. -/
def wrongState : Nat := 2
/-- R189. -/
def badField : Nat := 3
/-- R189. -/
def noSuchJob : Nat := 4
/-- R189. -/
def badConfig : Nat := 5
/-- R189. -/
def boardFull : Nat := 6

end Sys2Proof.Machine
end

