-- ==== Sys2Proof/Machine/Flags.lean ====
section
/-! DEFINITION. The flags: the interrupt sources, mask and line (R193), the latches and LOCKED_WRITE, the clear locations
(R186), the loss flag (R34), and the saturation of the cost accumulator (R109). -/

namespace Sys2Proof.Machine

/-- R193: the notice threshold in force: a threshold written as 0 acts as 1. -/
def ConfigBlock.noticeLevel (c : ConfigBlock) : Nat := max c.threshold 1

/-- R185, R193: the raw interrupt byte: NOTICE, NOTICE_OVERFLOW, REQUEST_OVERFLOW, REQUEST_TORN, STATE_CHANGE. -/
def rawInterrupts (c : ConfigBlock) (p : Port) : Byte :=
  b8 (bit (decide (c.noticeLevel ≤ p.notices.length)) + 2 * bit p.noticeOverflow + 4 * bit p.requestOverflow
    + 8 * bit p.requestTorn + 16 * bit p.stateChange)

/-- R193: raw and enable, bit by bit. -/
def maskedInterrupts (c : ConfigBlock) (p : Port) : Byte := rawInterrupts c p &&& p.enable

/-- R193: IRQ is asserted while any masked bit is set. -/
def State.irq (s : State) : Bool := maskedInterrupts s.cfg s.port != 0

/-- R186: a clear location reads as its latch, and the read clears it. Addresses 0x30–0x34. -/
def Port.readClear (p : Port) (addr : Nat) : Bool × Port :=
  if addr = 0x30 then (p.noticeOverflow, { p with noticeOverflow := false })
  else if addr = 0x31 then (p.requestOverflow, { p with requestOverflow := false })
  else if addr = 0x32 then (p.requestTorn, { p with requestTorn := false })
  else if addr = 0x33 then (p.stateChange, { p with stateChange := false })
  else (p.locked, { p with locked := false })

/-- R34: the loss flag set; setting it while set leaves it set. -/
def Link.setLoss (l : Link) : Link := { l with loss := true }

/-- R34: the loss flag cleared. -/
def Link.clearLoss (l : Link) : Link := { l with loss := false }

/-- R109: the cost accumulator with its saturation flag. -/
structure Accumulator where
  value : Nat
  saturated : Bool
deriving DecidableEq, Repr

/-- R109: the accumulator at the start of a computation. -/
def Accumulator.start : Accumulator := ⟨0, false⟩

/-- R109: a term added as the product of a time and a count, the product held at 65535, the sum saturating. -/
def Accumulator.add (a : Accumulator) (time count : Nat) : Accumulator :=
  let p := min (time * count) 65535
  if a.value + p > 65535 then ⟨65535, true⟩ else ⟨a.value + p, a.saturated⟩

/-- R109: the cost: the accumulator, 65535 when the flag is set. -/
def Accumulator.cost (a : Accumulator) : Nat := if a.saturated then 65535 else a.value

end Sys2Proof.Machine
end

