-- ==== Sys2Proof/Machine/Ops.lean ====
section
/-! DEFINITION. The shared operations over the queues, the notices, the station state and the replica: keyed tables, the
signature (R82), the transmit queue's producers (R26, R28, R48), the request queue (R189), and who is present, custodian
or reporting station (R56, R79). -/

namespace Sys2Proof.Machine

/-! ## Keyed tables -/

/-- The items whose key is not `k`. -/
def dropKey {α κ : Type} [DecidableEq κ] (key : α → κ) (k : κ) (l : List α) : List α := l.filter fun y => key y != k

/-- An item placed before the first item of a greater key. -/
def insertAsc {α : Type} (key : α → Nat) (x : α) : List α → List α
  | [] => [x]
  | y :: t => if key x < key y then x :: y :: t else y :: insertAsc key x t

/-- A table with `x` made, or replacing the item of its key. -/
def putKey {α : Type} (key : α → Nat) (x : α) (l : List α) : List α := insertAsc key x (dropKey key (key x) l)

/-- The item of a key. -/
def findKey {α κ : Type} [DecidableEq κ] (key : α → κ) (k : κ) (l : List α) : Option α := l.find? fun y => key y == k

/-! ## The signature (R82) -/

/-- The sum modulo 2^32 of a check over a list of items. -/
def sumOf {α : Type} (check : α → Word32) (l : List α) : Word32 := l.foldr (fun x a => check x + a) 0

/-- R82: the item check of a station item. -/
def StationItem.check (t : StationItem) : Word32 := crc32 t.bytes
/-- R82: the item check of a dock record. -/
def DockRecord.check (d : DockRecord) : Word32 := crc32 d.bytes
/-- R82: the item check of an aisle record. -/
def AisleRecord.check (a : AisleRecord) : Word32 := crc32 a.bytes
/-- R82: the item check of a job entry. -/
def JobEntry.check (e : JobEntry) : Word32 := crc32 e.bytes

/-- R82: the sum of the item checks of every item of the replica. -/
def Replica.sum (r : Replica) : Word32 :=
  sumOf StationItem.check r.roster + sumOf DockRecord.check r.docks + sumOf AisleRecord.check r.aisles
    + sumOf JobEntry.check r.jobs

/-- R82: the signature after the items in `old` leave and those in `new` enter. -/
def refold {α : Type} (check : α → Word32) (sig : Word32) (old new : List α) : Word32 :=
  sig - sumOf check old + sumOf check new

/-- The items of a table with a given key. -/
def withKey {α κ : Type} [DecidableEq κ] (key : α → κ) (k : κ) (l : List α) : List α := l.filter fun y => key y == k

/-! ## The replica's one-item changes: each folds the item's check into the signature (R82) -/

/-- The key of a job entry. -/
def JobEntry.id (e : JobEntry) : JobId := e.job.id

/-- A station item made or replaced. -/
def Replica.putStation (r : Replica) (t : StationItem) : Replica :=
  { r with roster := putKey StationItem.number t r.roster
           signature := refold StationItem.check r.signature (withKey StationItem.number t.number r.roster) [t] }
/-- A station item removed. -/
def Replica.dropStation (r : Replica) (n : Station) : Replica :=
  { r with roster := dropKey StationItem.number n r.roster
           signature := refold StationItem.check r.signature (withKey StationItem.number n r.roster) [] }
/-- A dock record made or replaced. -/
def Replica.putDock (r : Replica) (d : DockRecord) : Replica :=
  { r with docks := putKey DockRecord.number d r.docks
           signature := refold DockRecord.check r.signature (withKey DockRecord.number d.number r.docks) [d] }
/-- An aisle record made or replaced. -/
def Replica.putAisle (r : Replica) (a : AisleRecord) : Replica :=
  { r with aisles := putKey AisleRecord.aisle a r.aisles
           signature := refold AisleRecord.check r.signature (withKey AisleRecord.aisle a.aisle r.aisles) [a] }
/-- A job entry made or replaced. -/
def Replica.putJob (r : Replica) (e : JobEntry) : Replica :=
  { r with jobs := putKey JobEntry.id e r.jobs
           signature := refold JobEntry.check r.signature (withKey JobEntry.id e.id r.jobs) [e] }
/-- A job entry removed. -/
def Replica.dropJob (r : Replica) (id : JobId) : Replica :=
  { r with jobs := dropKey JobEntry.id id r.jobs
           signature := refold JobEntry.check r.signature (withKey JobEntry.id id r.jobs) [] }

/-! ## Reading the replica -/

/-- The Roster item of a station. -/
def Replica.station (r : Replica) (n : Station) : Option StationItem := findKey StationItem.number n r.roster
/-- The record of a dock. -/
def Replica.dock (r : Replica) (n : Nat) : Option DockRecord := findKey DockRecord.number n r.docks
/-- The record of an aisle. -/
def Replica.aisle (r : Replica) (a : Nat) : Option AisleRecord := findKey AisleRecord.aisle a r.aisles
/-- The entry of a job. -/
def Replica.entry (r : Replica) (id : JobId) : Option JobEntry := findKey JobEntry.id id r.jobs

/-- R56: a present station is one with an item in the Roster. -/
def Replica.present (r : Replica) (n : Station) : Bool := (r.station n).isSome
/-- Present with a given role. -/
def Replica.presentAs (r : Replica) (n : Station) (role : Role) : Bool :=
  match r.station n with
  | some t => t.role == role
  | none => false

/-- The numbers of the Roster's items of role DISPATCH. -/
def Replica.dispatchers (r : Replica) : List Station :=
  (r.roster.filter fun t => t.role == .dispatch).map StationItem.number

/-- R56: the custodian of a job: the origin when present, otherwise the lowest-numbered present dispatch station,
otherwise the lowest-numbered present station. -/
def Replica.custodian (r : Replica) (id : JobId) : Option Station :=
  if r.present (origin id) then some (origin id)
  else match r.dispatchers.min? with
    | some n => some n
    | none => (r.roster.map StationItem.number).min?

/-- R79: the reporting station of a job: the origin when present with role DISPATCH, otherwise the lowest-numbered present
dispatch station. -/
def Replica.reporter (r : Replica) (id : JobId) : Option Station :=
  if r.presentAs (origin id) .dispatch then some (origin id) else r.dispatchers.min?

/-- A predecessor on the board and live (R60, R68, R77, R150). -/
def Replica.predLive (r : Replica) (j : JobRecord) : Bool :=
  match r.entry j.pred with
  | some p => p.state.live
  | none => false

/-! ## Notices (R190) -/

/-- R190: a notice joins the tail of a queue of fewer than 32, and is otherwise discarded with NOTICE_OVERFLOW. -/
def Port.give (p : Port) (n : List Byte) : Port :=
  if p.notices.length < Config.noticeCapacity then { p with notices := p.notices ++ [n] }
  else { p with noticeOverflow := true }

/-- A block gives a notice. -/
def State.give (s : State) (n : List Byte) : State := { s with port := s.port.give n }

/-- Notices of one event, in order (R190). -/
def State.giveAll (s : State) (l : List (List Byte)) : State := { s with port := l.foldl Port.give s.port }

/-- A REFUSED notice (R189). -/
def State.refuse (s : State) (kind code index subject : Nat) : State := s.give (noticeRefused kind code index subject)

/-! ## Station state -/

/-- The station's own number, as the configuration block holds it. -/
def State.me (s : State) : Station := s.cfg.number

/-- R37: a change of station state other than by reset: STATE notice and STATE_CHANGE latch. -/
def State.setStation (s : State) (st : StationState) (cause : Cause) : State :=
  let s1 := { s with mem.st := st, mem.cause := cause, port.stateChange := true }
  s1.give (noticeState st cause)

/-- ACTIVE or DRAINING. -/
def State.running (s : State) : Bool := s.mem.st == .active || s.mem.st == .draining

/-- The states in which frames are applied and a presence timer runs (R38, R48). -/
def State.onLink (s : State) : Bool := s.running || s.mem.st == .syncing

/-- A fresh age for a mark (the model's own counter). -/
def State.stamped (s : State) : State := { s with stamp := s.stamp + 1 }

/-! ## The transmit queue's producers -/

/-- R26: an optional frame would join. No frame is admitted while FAULTED (R35). -/
def State.admits (s : State) : Bool :=
  decide (s.link.txq.length < Config.optionalLimit) && s.mem.st != .faulted

/-- A frame joins the tail, not yet started. -/
def State.enqueue (s : State) (kind : FrameKind) (payload : List Byte) (fill : Fill) : State :=
  { s with link.txq := s.link.txq ++ [{ kind := kind, payload := payload, sequence := none, fill := fill }] }

/-- R48: a DIGEST is offered, unless one is queued already. -/
def State.offerDigest (s : State) : State :=
  if s.link.txq.any (fun f => f.kind == .digest) then s
  else if s.admits then s.enqueue .digest [] .digest else s

/-- R48: a postponed DIGEST, or one due on entering a state: the presence timer stands expired. -/
def State.duedDigest (s : State) : State :=
  if s.onLink && s.mem.presence == .expired then s.offerDigest else s

/-- R28: the frames of a kind described by `p` that have never started are withdrawn; a withdrawal lets a postponed DIGEST
be offered again (R48). -/
def State.withdraw (s : State) (p : TxFrame → Bool) : State :=
  if s.link.txq.any (fun f => p f && f.sequence.isNone) then
    State.duedDigest { s with link.txq := s.link.txq.filter fun f => !(p f && f.sequence.isNone) }
  else s

/-- A BID of a job. -/
def TxFrame.bidFor (id : JobId) (f : TxFrame) : Bool := f.kind == .bid && wordAt f.payload 0 == id

/-- A STARTED milestone of a job. -/
def TxFrame.startedOf (id : JobId) (f : TxFrame) : Bool :=
  f.kind == .progress && wordAt f.payload 0 == id && byteAt f.payload 2 == 1

/-- A LOST naming a peer. -/
def TxFrame.lostOf (n : Station) (f : TxFrame) : Bool := f.kind == .lost && byteAt f.payload 0 == n

/-- A frame of a donor's serve (R175). -/
def Fill.snapshot : Fill → Bool
  | .snapHead _ | .snapNext _ | .snapEnded _ => true
  | _ => false

/-! ## The request queue (R189) -/

/-- R189: the record lengths of the request kinds; none for a kind outside 1–15. -/
def requestLength : Nat → Option Nat
  | 1 | 2 | 3 | 4 => some 2
  | 5 => some 14
  | 6 | 7 | 9 | 10 | 12 => some 4
  | 8 => some 5
  | 11 => some 6
  | 13 | 14 | 15 => some 3
  | _ => none

/-- R189: a record that its kind's block takes: of kind 1–15 and of that kind's length, or a SUBMIT. -/
def ownedRecord (r : List Byte) : Bool :=
  match requestLength (byteAt r 1) with
  | some n => r.length == n || byteAt r 1 == 5
  | none => false

/-- R189: the head record, when it is one of the given kind that the kind's block takes. -/
def State.request (s : State) (kind : Nat) : Option (List Byte) :=
  match s.port.requests with
  | [] => none
  | r :: _ => if ownedRecord r && byteAt r 1 == kind then some r else none

/-- The head record leaves the request queue. -/
def State.popRequest (s : State) : State := { s with port.requests := s.port.requests.tail }

/-- A request of a kind taken by its block: popped, then given its effect. -/
def State.takeRequest (s : State) (kind : Nat) (f : List Byte → State → State) : State :=
  match s.request kind with
  | some r => f r s.popRequest
  | none => s

/-- A request that its block may keep at the head (R10, R71, R72, R125). -/
def State.takeRequestUnless (s : State) (kind : Nat) (held : List Byte → State → Bool) (f : List Byte → State → State) :
    State :=
  match s.request kind with
  | some r => if held r s then s else f r s.popRequest
  | none => s

/-! ## The clock (log 1) -/

/-- The clock stands at or past a timer's expiry. -/
def State.reach (s : State) (expiry : Nat) : State := { s with now := max s.now expiry }

/-- Four presence intervals, in milliseconds. -/
def ConfigBlock.fourP (c : ConfigBlock) : Nat := 4 * c.pTime

end Sys2Proof.Machine
end

