-- ==== Sys2Proof/Machine/Replica.lean ====
section
/-! DEFINITION. What the applied frames do to the replica: entries and their reports (R59–R79), dock places (R119–R127),
the aisle record's station fields (R132, R133), the Roster (R45–R47, R53), each change through the one-item changes of
Ops.lean. A `Rework` carries the replica together with the notices the changes give and the keys of the items removed. -/

namespace Sys2Proof.Machine

/-- The replica in the course of one application. -/
structure Rework where
  rep : Replica
  notes : List (List Byte)
  gone : List ItemKey
deriving DecidableEq, Repr

/-- Who applies: the station's number, and whether it is SYNCING (R79: it then gives no JOB notice). -/
structure Ctx where
  me : Station
  syncing : Bool
deriving DecidableEq, Repr

/-- A notice given within the application. -/
def Rework.note (w : Rework) (n : List Byte) : Rework := { w with notes := w.notes ++ [n] }

/-! ## Entries and their reports -/

/-- A change to an entry that is not a change of state (R79: not reported). -/
def Rework.amend (w : Rework) (e : JobEntry) : Rework := { w with rep := w.rep.putJob e }

/-- R79: a change of an entry's state, reported at the reporting station with the owner shown. -/
def Rework.report (x : Ctx) (e : JobEntry) (owner : Option Station) (w : Rework) : Rework :=
  if !x.syncing && w.rep.reporter e.id == some x.me then
    w.note (noticeJob e.id e.state.code (orZero owner) e.reason)
  else w

/-- An entry takes a new state: put on the board and reported. -/
def Rework.enter (x : Ctx) (e : JobEntry) (owner : Option Station) (w : Rework) : Rework :=
  (w.amend e).report x e owner

/-- R59, R60: an entry out of its owner's hands, its bid list empty, in another state. -/
def JobEntry.disown (e : JobEntry) (st : JobState) (reason : Nat) : JobEntry :=
  { e with state := st, owner := none, bids := [], reason := reason }

/-! ## Dock places (R119) -/

/-- R119, take: one place, free to reserved. -/
def DockRecord.take (d : DockRecord) : DockRecord :=
  if 1 ≤ d.free then { d with free := d.free - 1, reserved := d.reserved + 1 } else d
/-- R119, settle: one place, reserved to occupied. -/
def DockRecord.settle (d : DockRecord) : DockRecord :=
  if 1 ≤ d.reserved then { d with reserved := d.reserved - 1, occupied := d.occupied + 1 } else d
/-- R119, return: one place, reserved to free. -/
def DockRecord.giveBack (d : DockRecord) : DockRecord :=
  if 1 ≤ d.reserved then { d with reserved := d.reserved - 1, free := d.free + 1 } else d
/-- R119, clear: n places, occupied to free. -/
def DockRecord.clear (n : Nat) (d : DockRecord) : DockRecord :=
  if n ≤ d.occupied then { d with occupied := d.occupied - n, free := d.free + n } else d

/-- A transfer at the dock of a job's entry: a RETRIEVE whose dock record is held (R118, R128). -/
def Rework.atDock (f : DockRecord → DockRecord) (j : JobRecord) (w : Rework) : Rework :=
  if j.isRetrieve then
    match w.rep.dock j.dockNumber with
    | some d => { w with rep := w.rep.putDock (f d) }
    | none => w
  else w

/-- The condition on the dock of R87, R93, R96: for a RETRIEVE a record is held with free above 0. On the partial table of a
SYNCING station a record that is lacking does not count (R128, R173; log 50). -/
def Replica.dockOpen (r : Replica) (syncing : Bool) (j : JobRecord) : Bool :=
  if j.isRetrieve then
    match r.dock j.dockNumber with
    | some d => decide (0 < d.free)
    | none => syncing
  else true

/-! ## Successors (R65, R66) -/

/-- R65: one HELD successor opens. -/
def JobEntry.opening (e : JobEntry) : JobEntry :=
  { e with state := .opened, attempt := if e.attempt = 0 then 1 else e.attempt }

/-- R65: the HELD successors of a DONE entry become OPEN, in ascending order of job id. -/
def Rework.openSuccessors (x : Ctx) (id : JobId) (w : Rework) : Rework :=
  (w.rep.jobs.filter fun e => e.job.pred == id && e.state == .held).foldl
    (fun w e => w.enter x e.opening none) w

/-- R66: an entry that fails with its predecessor: HELD, or AWARDED with attempt 0. -/
def JobEntry.failsWith (gen : List JobId) (e : JobEntry) : Bool :=
  gen.contains e.job.pred && (e.state == .held || (e.state == .awarded && e.attempt == 0))

/-- R66: one successor becomes FAILED, reason PREDECESSOR; a chain-claimed RETRIEVE returns its place. -/
def Rework.failOne (x : Ctx) (w : Rework) (e : JobEntry) : Rework :=
  let w1 := w.enter x (e.disown .failed 3) e.owner
  if e.state == .awarded then w1.atDock DockRecord.giveBack e.job else w1

/-- R66: the successors of a generation of failed or cancelled entries fail, then theirs in turn. The fuel is the number
of entries: each fails at most once. -/
def Rework.failSuccessors (x : Ctx) : Nat → List JobId → Rework → Rework
  | 0, _, w => w
  | n + 1, gen, w =>
    let next := w.rep.jobs.filter (JobEntry.failsWith gen)
    if next.isEmpty then w else (next.foldl (Rework.failOne x) w).failSuccessors x n (next.map JobEntry.id)

/-- An entry enters FAILED or CANCELLED, and its successors are judged (R66). -/
def Rework.failEntry (x : Ctx) (e : JobEntry) (st : JobState) (reason : Nat) (w : Rework) : Rework :=
  let w1 := w.enter x (e.disown st reason) e.owner
  w1.failSuccessors x w1.rep.jobs.length [e.id]

/-- R68, R77: an entry given back by its owner or left by it: HELD behind a live predecessor, OPEN otherwise; in SYNCING as
the partial board holds the predecessor (log 70). -/
def Rework.reopen (x : Ctx) (e : JobEntry) (w : Rework) : Rework :=
  let st := if w.rep.predLive e.job then JobState.held else JobState.opened
  (w.enter x (e.disown st 0) e.owner).atDock DockRecord.giveBack e.job

/-! ## The Roster and what hangs on it -/

/-- R77: one entry of a departed owner. -/
def Rework.orphan (x : Ctx) (w : Rework) (e : JobEntry) : Rework :=
  match e.state with
  | .awarded => w.reopen x e
  | .active => w.enter x { e with state := .stranded, bids := [] } e.owner
  | _ => w

/-- R127: a dock whose server departed loses it. -/
def DockRecord.unserved (n : Station) (d : DockRecord) : DockRecord :=
  if d.server == some n then { d with server := none } else d

/-- R133: an aisle record loses a departed station. -/
def AisleRecord.without (n : Station) (a : AisleRecord) : AisleRecord :=
  match a.form with
  | .sole => if a.sole == some n then { a with sole := none } else a
  | .tandem =>
    if a.low == some n || a.high == some n then
      { a with low := if a.low == some n then none else a.low
               high := if a.high == some n then none else a.high
               state := .frozen }
    else a

/-- R38, R53, R54, R77, R127, R133: the departure of a present station, with the event code of its ROSTER notice. -/
def Rework.depart (x : Ctx) (n : Station) (event : Nat) (w : Rework) : Rework :=
  match w.rep.station n with
  | none => w
  | some t =>
    let w1 : Rework :=
      { rep := w.rep.dropStation n, notes := w.notes ++ [noticeRoster event n t.role.code 0]
        gone := w.gone ++ [.station n] }
    let w2 := (w1.rep.jobs.filter fun e => e.owner == some n).foldl (Rework.orphan x) w1
    let rep := w2.rep.docks.foldl (fun r d => r.putDock (d.unserved n)) w2.rep
    { w2 with rep := rep.aisles.foldl (fun r a => r.putAisle (a.without n)) rep }

/-! ## JOIN (R44–R46, R121, R132) -/

/-- R44: the dock entries a JOIN carries: number, capacity, occupied. -/
def joinDocks (p : List Byte) : List (Nat × Nat × Nat) :=
  (List.range (byteAt p 8)).map fun i => (byteAt p (9 + 3 * i), byteAt p (10 + 3 * i), byteAt p (11 + 3 * i))

/-- R45, reason FIELDS: the role, the length, or a field outside the values of R44 for the role. -/
def joinFieldsBad (p : List Byte) : Bool :=
  let role := byteAt p 0
  let aisle := byteAt p 1
  let craneEnd := byteAt p 2
  let pos := byteAt p 3
  let level := byteAt p 4
  let home := byteAt p 5
  let count := byteAt p 8
  !(role == 1 || role == 2) || p.length != 9 + 3 * count ||
  (if role == 1 then
      aisle > 7 || !(1 ≤ craneEnd && craneEnd ≤ 3) || pos > 127 || level > 31 ||
      (if craneEnd == 3 then home != 0 else !(1 ≤ home && home ≤ 14)) || count != 0
    else
      aisle != 0 || craneEnd != 0 || pos != 0 || level != 0 || home != 0 || count > 4 ||
      (joinDocks p).any fun d => d.1 > 15 || d.2.1 > 4 || d.2.2 > 4)

/-- The station of an aisle record's field for an end. -/
def AisleRecord.field (a : AisleRecord) : CraneEnd → Option Station
  | .low => a.low
  | .high => a.high
  | .sole => a.sole
  | .absent => none

/-- R45: the first reason to reject a JOIN, as its code in the ROSTER notice; 0 when none holds. -/
def Replica.joinReason (r : Replica) (hash : Option Word16) (p : List Byte) : Nat :=
  let crane := byteAt p 0 == 1
  let aisle := byteAt p 1
  let craneEnd := (CraneEnd.ofCode (byteAt p 2)).getD .absent
  let rec0 := r.aisle aisle
  let b := match rec0 with
    | some a => orZero a.boundary
    | none => byteAt p 5
  if joinFieldsBad p then 1
  else if hash != some (BitVec.ofNat 16 (wordAt p 6)) then 2
  else if crane && r.roster.any (fun t => t.role == .crane && t.aisle == aisle && t.craneEnd == craneEnd) then 3
  else if crane && (match rec0 with
      | some a => a.form != (if craneEnd == .sole then AisleForm.sole else .tandem)
      | none => false) then 4
  else if crane && craneEnd.tandem && !craneEnd.ownSide b (segment (byteAt p 3)) then 5
  else if !decide ((joinDocks p).map (·.1)).Nodup || (joinDocks p).any (fun d => d.2.2 > d.2.1) then 6
  else 0

/-- Numbers in ascending order. -/
def ascending (l : List Nat) : List Nat := l.foldr (insertAsc id) []

/-- R46: the item a JOIN adds. -/
def joinItem (n : Station) (p : List Byte) : StationItem where
  number := n
  role := (Role.ofCode (byteAt p 0)).getD .crane
  aisle := byteAt p 1
  craneEnd := (CraneEnd.ofCode (byteAt p 2)).getD .absent
  docks := ascending ((joinDocks p).map (·.1))
  backlog := 0
  runLength := 0
  pos := byteAt p 3
  level := byteAt p 4
  craneState := 0
  draining := false
  syncing := false

/-- R121: one served dock of an accepted JOIN; `make` is false on a partial table, where no record is made (R128). -/
def Replica.declare (n : Station) (make : Bool) (r : Replica) (d : Nat × Nat × Nat) : Replica :=
  match r.dock d.1 with
  | none =>
    if make then
      r.putDock { number := d.1, capacity := d.2.1, free := d.2.1 - d.2.2, reserved := 0, occupied := d.2.2,
                  server := some n }
    else r
  | some rec0 => if rec0.server.isNone then r.putDock { rec0 with server := some n } else r

/-- R132: the state of a TANDEM record from its fields (R130). -/
def AisleRecord.settled (a : AisleRecord) : AisleRecord :=
  { a with state := if a.low.isSome && a.high.isSome then .set else .frozen }

/-- R132: the aisle of an accepted crane JOIN; `make` as for the docks (R173). -/
def Replica.enterAisle (n : Station) (make : Bool) (t : StationItem) (home : Nat) (r : Replica) : Replica :=
  match t.craneEnd, r.aisle t.aisle with
  | .sole, none =>
    if make then
      r.putAisle { aisle := t.aisle, form := .sole, low := none, high := none, sole := some n, boundary := none,
                   state := .sole }
    else r
  | .sole, some a => r.putAisle { a with sole := some n }
  | .low, none =>
    if make then
      r.putAisle { aisle := t.aisle, form := .tandem, low := some n, high := none, sole := none,
                   boundary := some home, state := .frozen }
    else r
  | .low, some a => r.putAisle { a with low := some n }.settled
  | .high, none =>
    if make then
      r.putAisle { aisle := t.aisle, form := .tandem, low := none, high := some n, sole := none,
                   boundary := some home, state := .frozen }
    else r
  | .high, some a => r.putAisle { a with high := some n }.settled
  | .absent, _ => r

/-- R45, R46: a JOIN judged after any earlier presence of the joiner has ended; rejected, or its item, docks and aisle
taken. The notice of a rejected JOIN shows the role byte as carried (log 48). -/
def Rework.join (x : Ctx) (hash : Option Word16) (n : Station) (p : List Byte) (w : Rework) : Rework :=
  let reason := w.rep.joinReason hash p
  if reason = 0 then
    let t := joinItem n p
    let r1 := w.rep.putStation t
    let r2 := (joinDocks p).foldl (Replica.declare n (!x.syncing)) r1
    let r3 := if t.role == .crane then r2.enterAisle n (!x.syncing) t (byteAt p 5) else r2
    { w with rep := r3, notes := w.notes ++ [noticeRoster 1 n t.role.code 0] }
  else w.note (noticeRoster 5 n (byteAt p 0) reason)

/-! ## DIGEST (R49, R78) -/

/-- R49: the presence fields a DIGEST carries (flags, log 8). -/
def StationItem.carried (p : List Byte) (t : StationItem) : StationItem :=
  { t with backlog := wordAt p 8, runLength := byteAt p 7, pos := byteAt p 10, level := byteAt p 11
           craneState := byteAt p 12, draining := (p.getD 4 0).getLsbD 0, syncing := (p.getD 4 0).getLsbD 1 }

/-- R49: the sender's presence fields take the carried values. -/
def Rework.presence (n : Station) (p : List Byte) (w : Rework) : Rework :=
  match w.rep.station n with
  | some t => { w with rep := w.rep.putStation (t.carried p) }
  | none => w

/-- R78: a terminal entry for which the sender answers. -/
def Replica.retires (r : Replica) (n : Station) (e : JobEntry) : Bool :=
  !e.state.live && (origin e.id == n || (!r.present (origin e.id) && r.custodian e.id == some n))

/-- R78: the terminal entries answered for by the sender are removed. -/
def Rework.retire (n : Station) (w : Rework) : Rework :=
  (w.rep.jobs.filter (w.rep.retires n)).foldl
    (fun w e => { w with rep := w.rep.dropJob e.id, gone := w.gone ++ [.job e.id] }) w

/-! ## OFFER (R62–R64) -/

/-- R63: the state, reason and attempt of a new entry, judged against the board before it is made. -/
def Replica.firstState (r : Replica) (j : JobRecord) : JobState × Nat × Nat :=
  let pred := r.entry j.pred
  if r.jobs.any (fun e => e.state.live && e.id != j.pred && j.conflicts e.job) then (.rejected, 1, 0)
  else if (match r.aisle j.aisle with
      | some a => a.form == AisleForm.tandem && !j.reachableTandem
      | none => false) then (.rejected, 2, 0)
  else match pred with
    | some e =>
      if e.state.live then (.held, 0, 0)
      else if e.state == JobState.done then (.opened, 0, 1)
      else (.failed, 3, 0)
    | none => (.opened, 0, 1)

/-- R63: the new entry. -/
def Replica.firstEntry (r : Replica) (j : JobRecord) : JobEntry :=
  let st := r.firstState j
  { job := j, state := st.1, attempt := st.2.2, owner := none, loaded := false, loadClass := j.weight
    reason := st.2.1, bids := [] }

/-- R62–R64, R66: an OFFER from `sender` applied. -/
def Rework.offer (x : Ctx) (sender : Station) (j : JobRecord) (attempt : Nat) (w : Rework) : Rework :=
  match w.rep.entry j.id with
  | some e =>
    if e.state == .opened && decide (e.attempt < attempt) then w.amend { e with attempt := attempt, bids := [] } else w
  | none =>
    if x.syncing || sender != origin j.id || attempt != 1 then w
    else if Config.boardCapacity ≤ w.rep.jobs.length then
      if sender == x.me then w.note (noticeRefused 5 boardFull 0 j.id) else w
    else
      let e := w.rep.firstEntry j
      let w1 := w.enter x e none
      if e.state == .failed then w1.failSuccessors x w1.rep.jobs.length [e.id] else w1

/-! ## BID and AWARD (R90, R93, R96) -/

/-- R90: a bid placed after every bid of at most its cost. -/
def placeBid (b : Bid) : List Bid → List Bid
  | [] => [b]
  | y :: t => if y.cost ≤ b.cost then y :: placeBid b t else b :: y :: t

/-- R90: the bid list after a bid of a new bidder; unchanged when it holds 4 bids, none dearer. -/
def takeBid (b : Bid) (l : List Bid) : List Bid :=
  if l.length < 4 then placeBid b l
  else if l.all fun y => y.cost ≤ b.cost then l
  else placeBid b l.dropLast

/-- R90: a BID from `sender` applied. -/
def Rework.bid (sender : Station) (id : JobId) (attempt cost : Nat) (w : Rework) : Rework :=
  match w.rep.entry id with
  | some e =>
    if w.rep.presentAs sender .crane && e.state == .opened && e.attempt == attempt
        && !(e.bids.any fun b => b.bidder == sender) then
      w.amend { e with bids := takeBid { bidder := sender, cost := cost } e.bids }
    else w
  | none => w

/-- R93: an AWARD of mode BID is accepted. -/
def Replica.acceptsBid (r : Replica) (syncing : Bool) (sender : Station) (e : JobEntry) (attempt : Nat) : Bool :=
  r.presentAs sender .crane && e.state == .opened && e.attempt == attempt && r.dockOpen syncing e.job

/-- R96: an AWARD of mode CHAIN is accepted. DESIGN CHOICE: in SYNCING too the predecessor must stand on the board, so one that
the partial board lacks makes the AWARD void (log 70). -/
def Replica.acceptsChain (r : Replica) (syncing : Bool) (sender : Station) (e : JobEntry) (attempt : Nat) : Bool :=
  r.presentAs sender .crane && e.state == .held && e.attempt == 0 && attempt == 0
    && (match r.entry e.job.pred with
        | some p => p.runBy sender
        | none => false)
    && r.dockOpen syncing e.job

/-- R93, R96, R122: an accepted AWARD makes the entry AWARDED to its sender and takes a dock place. -/
def Rework.award (x : Ctx) (sender : Station) (e : JobEntry) (w : Rework) : Rework :=
  (w.enter x { e with state := .awarded, owner := some sender, bids := [] } (some sender)).atDock DockRecord.take e.job

/-! ## PROGRESS (R67, R68, R70) -/

/-- R68: STARTED. -/
def Rework.started (x : Ctx) (e : JobEntry) (w : Rework) : Rework :=
  if e.state == .awarded then w.enter x { e with state := .active, bids := [] } e.owner else w

/-- R68: PICKED. -/
def Rework.picked (e : JobEntry) (detail : Nat) (w : Rework) : Rework :=
  if e.state == .active then
    w.amend { e with loaded := true, loadClass := if 1 ≤ detail ∧ detail ≤ 3 then detail else e.loadClass }
  else w

/-- An entry made DONE: owner removed, place settled (R123), successors opened (R65). -/
def Rework.finished (x : Ctx) (e : JobEntry) (w : Rework) : Rework :=
  ((w.enter x (e.disown .done 0) e.owner).atDock DockRecord.settle e.job).openSuccessors x e.id

/-- R68: DONE. -/
def Rework.doneBy (x : Ctx) (e : JobEntry) (w : Rework) : Rework := if e.state == .active then w.finished x e else w

/-- AWARDED, or ACTIVE and not loaded (R68). -/
def JobEntry.returnable (e : JobEntry) : Bool := e.state == .awarded || (e.state == .active && !e.loaded)

/-- R68: FAILED with a detail of 6–9; the place is returned (R124). -/
def Rework.failedBy (x : Ctx) (e : JobEntry) (detail : Nat) (w : Rework) : Rework :=
  if e.returnable && decide (6 ≤ detail ∧ detail ≤ 9) then
    (w.atDock DockRecord.giveBack e.job).failEntry x e .failed detail
  else w

/-- R68: STRANDED. -/
def Rework.strandedBy (x : Ctx) (e : JobEntry) (w : Rework) : Rework :=
  if e.state == .active then w.enter x { e with state := .stranded, bids := [] } e.owner else w

/-- R68: RELEASED. -/
def Rework.releasedBy (x : Ctx) (e : JobEntry) (w : Rework) : Rework :=
  if e.returnable then w.reopen x e else w

/-- R67, R68: a PROGRESS other than EXHAUSTED applies only to an entry whose owner is the sender. -/
def Rework.byOwner (sender : Station) (id : JobId) (f : JobEntry → Rework → Rework) (w : Rework) : Rework :=
  match w.rep.entry id with
  | some e => if e.owner == some sender then f e w else w
  | none => w

/-- R70: EXHAUSTED, from the custodian of an OPEN entry. -/
def Rework.exhausted (x : Ctx) (sender : Station) (id : JobId) (w : Rework) : Rework :=
  match w.rep.entry id with
  | some e =>
    if e.state == .opened && w.rep.custodian id == some sender then w.failEntry x e .failed 4 else w
  | none => w

/-! ## CANCEL, RESOLVE JOB, DOCK, RESOLVE AISLE, GRANT -/

/-- R74: a CANCEL takes effect on the entry. -/
def JobEntry.cancellable (e : JobEntry) : Bool := e.state == .held || e.state == .opened || e.state == .awarded

/-- R73, R74: a CANCEL applied; in SYNCING one of an absent entry gives no notice (log 27). -/
def Rework.cancel (x : Ctx) (sender : Station) (id : JobId) (w : Rework) : Rework :=
  if w.rep.presentAs sender .dispatch then
    match w.rep.entry id with
    | some e =>
      if e.cancellable then
        let w1 := if e.state == .awarded then w.atDock DockRecord.giveBack e.job else w
        w1.failEntry x e .cancelled 10
      else if sender == x.me then w.note (noticeLate id e.state.code) else w
    | none => if sender == x.me && !x.syncing then w.note (noticeLate id 0) else w
  else w

/-- R76, R123, R124: a RESOLVE of form JOB applied; in SYNCING one of an absent entry gives no notice (log 27). -/
def Rework.resolveJob (x : Ctx) (sender : Station) (id : JobId) (outcome : Nat) (w : Rework) : Rework :=
  if w.rep.presentAs sender .dispatch then
    match w.rep.entry id with
    | some e =>
      if e.state == .stranded && outcome == 1 then w.finished x e
      else if e.state == .stranded && outcome == 2 then
        (w.atDock DockRecord.giveBack e.job).failEntry x e .failed 5
      else if sender == x.me then w.note (noticeRefused 8 noSuchJob 0 id) else w
    | none => if sender == x.me && !x.syncing then w.note (noticeRefused 8 noSuchJob 0 id) else w
  else w

/-- R126, R128: a DOCK applied. -/
def Rework.freed (x : Ctx) (sender : Station) (n count : Nat) (w : Rework) : Rework :=
  match w.rep.dock n with
  | some d =>
    if d.server == some sender && decide (1 ≤ count ∧ count ≤ 4) then
      if count ≤ d.occupied then { w with rep := w.rep.putDock (d.clear count) }
      else if sender == x.me then w.note (noticeUnderflow n count d.occupied) else w
    else if sender == x.me then w.note (noticeRefused 7 badField 0 n) else w
  | none => if sender == x.me && !x.syncing then w.note (noticeRefused 7 badField 0 n) else w

/-- R145, R146: a new boundary moves toward an absent field of a TANDEM, FROZEN record. -/
def AisleRecord.resolvable (a : AisleRecord) (v : Nat) : Bool :=
  let b := orZero a.boundary
  a.form == .tandem && a.state == .frozen && decide (1 ≤ v ∧ v ≤ 14)
    && ((decide (b < v) && a.high.isNone) || (decide (v < b) && a.low.isNone))

/-- R146: a RESOLVE of form AISLE applied; in SYNCING one of an absent record gives no notice (log 27). -/
def Rework.resolveAisle (x : Ctx) (sender : Station) (aisle v : Nat) (w : Rework) : Rework :=
  if w.rep.presentAs sender .dispatch then
    match w.rep.aisle aisle with
    | some a =>
      if a.resolvable v then { w with rep := w.rep.putAisle { a with boundary := some v } }
      else if sender == x.me then w.note (noticeRefused 9 badField 1 aisle) else w
    | none => if sender == x.me && !x.syncing then w.note (noticeRefused 9 badField 1 aisle) else w
  else w

/-- R141: a GRANT from `sender` moves the boundary of a record. -/
def AisleRecord.grantable (a : AisleRecord) (sender : Station) (v : Nat) : Bool :=
  let b := orZero a.boundary
  a.form == .tandem && a.state == .set && decide (1 ≤ v ∧ v ≤ 14)
    && ((a.low == some sender && decide (v < b)) || (a.high == some sender && decide (b < v)))

/-- R141: a GRANT applied to the record. -/
def Rework.grant (sender : Station) (aisle v : Nat) (w : Rework) : Rework :=
  match w.rep.aisle aisle with
  | some a =>
    if w.rep.presentAs sender .crane && a.grantable sender v then
      { w with rep := w.rep.putAisle { a with boundary := some v } }
    else w
  | none => w

/-! ## Snapshot items (R178) -/

/-- R58, R178: a board holds at most 64 entries: an item that would make one more is not taken (log 46). -/
def Replica.holdsItem (r : Replica) : Item → Bool
  | .job e => (r.entry e.id).isSome || decide (r.jobs.length < Config.boardCapacity)
  | _ => true

/-- R178: the item carried is made, or replaces the item of its key. -/
def Replica.putItem (r : Replica) : Item → Replica
  | .station t => r.putStation t
  | .dock d => r.putDock d
  | .aisle a => r.putAisle a
  | .job e => r.putJob e

/-! ## On the whole state -/

/-- Who applies. -/
def State.ctx (s : State) : Ctx := { me := s.me, syncing := s.mem.st == .syncing }

/-- The replica's part of an application: the tables, the notices in order, and the sent marks of the items removed
(R169: a sent mark leaves with its item). -/
def State.rework (f : Rework → Rework) (s : State) : State :=
  let w := f { rep := s.rep, notes := [], gone := [] }
  { s with rep := w.rep, cons.sent := s.cons.sent.filter fun k => !w.gone.contains k }.giveAll w.notes

end Sys2Proof.Machine
end

