-- ==== Sys2Proof/Machine/Profile.lean ====
section
/-! DEFINITION. Times (06_travel_profiles_and_cost_arithmetic.md): travel time (R108), step estimates (R113), the remaining
estimates of the run list (R114), the bid cost (R109–R112), and the learning update (R115, R116). -/

namespace Sys2Proof.Machine

/-- A rail position and a level. -/
abbrev Point := Nat × Nat

/-- R108, R153: the source of a job; a dock endpoint stands at level 0. -/
def JobRecord.source (j : JobRecord) : Point := (j.srcPos, if formDock j.srcForm then 0 else j.srcLevel)

/-- R108, R153: the destination of a job. -/
def JobRecord.dest (j : JobRecord) : Point := (j.dstPos, if formDock j.dstForm then 0 else j.dstLevel)

/-- A difference taken positive. -/
def absDiff (a b : Nat) : Nat := (a - b) + (b - a)

/-- An entry of the profile table by its number. -/
def ProfileTable.at (t : ProfileTable) (i : Nat) : Nat := t[i]?.getD 1

/-- R108: the number of the horizontal entry of class `c` for a distance (log 11 for one above 127). -/
def hEntry (c dx : Nat) : Nat := 64 * c + min (dx / 4) 31

/-- R108: the number of the vertical entry of class `c` for a difference of levels. -/
def vEntry (c dy : Nat) : Nat := 64 * c + 32 + min dy 31

/-- R108: the horizontal time. -/
def ProfileTable.hTime (t : ProfileTable) (c dx : Nat) : Nat := if dx = 0 then 0 else t.at (hEntry c dx)

/-- R108: the vertical time. -/
def ProfileTable.vTime (t : ProfileTable) (c dy : Nat) : Nat := if dy = 0 then 0 else t.at (vEntry c dy)

/-- R108: the travel time T from `a` to `b` with forks in class `c`. -/
def ProfileTable.travel (t : ProfileTable) (c : Nat) (a b : Point) : Nat :=
  max (t.hTime c (absDiff a.1 b.1)) (t.vTime c (absDiff a.2 b.2))

/-- R116: the number of the entry that decides a travel step's estimate. -/
def ProfileTable.deciding (t : ProfileTable) (c : Nat) (a b : Point) : Nat :=
  let dx := absDiff a.1 b.1
  let dy := absDiff a.2 b.2
  if dx ≠ 0 ∧ t.vTime c dy ≤ t.hTime c dx then hEntry c dx else vEntry c dy

/-! ## The crane's part -/

/-- The step given to the crane and awaited (R152: OUTSTANDING or OVERDUE). -/
def Crane.inFlight (c : Crane) : Option Step :=
  match c.step with
  | some st => if st.status == .outstanding || st.status == .overdue then some st else none
  | none => none

/-- The crane's position. -/
def Crane.point (c : Crane) : Point := (c.pos, c.level)

/-- R110, R114: the target of the in-flight step if that is a TRAVEL, otherwise the position. -/
def Crane.start (c : Crane) : Point :=
  match c.inFlight with
  | some st => match st.act with
    | .travel p l => (p, l)
    | _ => c.point
  | none => c.point

/-- R5: the crane's current load class: 0 with empty forks, otherwise that of the entry whose pallet they hold (0 where
the board holds no such entry, log 37). -/
def State.loadClass (s : State) : Nat :=
  match s.seqr.crane.load with
  | none => 0
  | some id => match s.rep.entry id with
    | some e => e.loadClass
    | none => 0

/-- R113: a PICK or DROP estimate: the time, plus RearExtra when the depth is REAR. -/
def ConfigBlock.handling (cfg : ConfigBlock) (time depth : Nat) : Nat := time + if depth = 1 then cfg.rearExtra else 0

/-- R113: the estimate of a step at its issue. -/
def State.stepEstimate (s : State) : StepAct → Nat
  | .travel p l =>
    if s.seqr.crane.point = (p, l) then s.profile.at (vEntry s.loadClass 0)
    else s.profile.travel s.loadClass s.seqr.crane.point (p, l)
  | .pick _ depth _ _ => s.cfg.handling s.cfg.pickTime depth
  | .drop _ depth _ => s.cfg.handling s.cfg.dropTime depth

/-! ## Remaining estimates (R114) -/

/-- R153: the depth a step carries for an endpoint of this form: 3 at a dock. -/
def stepDepth (form : Byte) : Nat := if formDock form then 3 else formDepth form
/-- R153: the side a step carries for an endpoint of this form: 3 at a dock. -/
def stepSide (form : Byte) : Nat := if formDock form then 3 else formSide form

/-- R113, R114: the pick estimate of a job. -/
def ConfigBlock.pickEstimate (cfg : ConfigBlock) (j : JobRecord) : Nat := cfg.handling cfg.pickTime (stepDepth j.srcForm)
/-- R113, R114: the drop estimate of a job. -/
def ConfigBlock.dropEstimate (cfg : ConfigBlock) (j : JobRecord) : Nat := cfg.handling cfg.dropTime (stepDepth j.dstForm)

/-- A TRAVEL of a job. -/
def Step.travelOf (id : JobId) (st : Step) : Option Nat :=
  match st.act with
  | .travel _ _ => if st.job = some id then some st.estimate else none
  | _ => none

/-- R114: the estimate of the TRAVEL issued for a job, among the current step and a step set aside. -/
def Crane.issuedTravel (c : Crane) (id : JobId) : Option Nat :=
  match c.step.bind (Step.travelOf id) with
  | some n => some n
  | none => c.setAside.bind fun p => p.1.travelOf id

/-- R114: the remaining estimate of a run-list job whose first term starts at `start`; none where the board lacks the
record that it is computed from (log 6). -/
def State.remaining (s : State) (start : Option Point) (r : RunJob) : Option Nat :=
  match r.phase, s.rep.entry r.id with
  | .finishing, _ => some 0
  | _, none => none
  | .waiting, some e => start.map fun a =>
      min 65535 (s.profile.travel 0 a e.job.source + s.cfg.pickEstimate e.job
        + s.profile.travel e.loadClass e.job.source e.job.dest + s.cfg.dropEstimate e.job)
  | .toSource, some e =>
      let first := match s.seqr.crane.issuedTravel r.id with
        | some n => some n
        | none => start.map fun a => s.profile.travel 0 a e.job.source
      first.map fun n =>
        min 65535 (n + s.cfg.pickEstimate e.job
          + s.profile.travel e.loadClass e.job.source e.job.dest + s.cfg.dropEstimate e.job)
  | .picking, some e =>
      some (min 65535 (s.cfg.pickEstimate e.job + s.profile.travel e.loadClass e.job.source e.job.dest
        + s.cfg.dropEstimate e.job))
  | .toDest, some e =>
      let first := (s.seqr.crane.issuedTravel r.id).getD (s.profile.travel e.loadClass e.job.source e.job.dest)
      some (min 65535 (first + s.cfg.dropEstimate e.job))
  | .dropping, some e => some (min 65535 (s.cfg.dropEstimate e.job))

/-- R114: the estimates of a list, in order. `head` says that the head has been passed, `prev` is the destination of the
job before; `fresh` numbers the free values. -/
def State.estimates (s : State) (head : Bool) (prev : Option Point) (fresh : Nat) : List RunJob → Nat × List RunJob
  | [] => (fresh, [])
  | r :: t =>
    let start := if head then prev else some s.seqr.crane.start
    let after := (s.rep.entry r.id).map fun e => e.job.dest
    match s.remaining start r with
    | some n =>
      let rest := s.estimates (head || r.phase != .finishing) after fresh t
      (rest.1, { r with remaining := n } :: rest.2)
    | none =>
      let rest := s.estimates (head || r.phase != .finishing) after (fresh + 1) t
      (rest.1, { r with remaining := (Config.freeEstimate fresh).toNat } :: rest.2)

/-- R114, R167: the remaining estimates of all run-list jobs computed anew together; in FAULTED the list stays as it
stood. -/
def State.reestimate (s : State) : State :=
  if s.mem.st == .faulted then s
  else
    let e := s.estimates false none s.fresh s.seqr.runList
    { s with fresh := e.1, seqr.runList := e.2 }

/-- R49, R114: the backlog: the sum of the remaining estimates, held at 65535. -/
def State.backlog (s : State) : Nat := min 65535 (s.seqr.runList.foldl (fun n r => n + r.remaining) 0)

/-! ## Bid cost (R109–R112) -/

/-- R149: the place at which a job enters a run list: an index. -/
def insertPlace (l : List RunJob) (j : JobRecord) : Nat :=
  if j.urgent then
    let i := l.findIdx fun r => !r.urgent && r.phase == .waiting
    let p := l.findIdx fun r => r.id == j.pred
    if p < l.length ∧ i ≤ p then p + 1 else i
  else l.length

/-- The aisle record of the station's own aisle on its own board. -/
def State.ownAisle (s : State) : Option AisleRecord := s.rep.aisle s.cfg.aisle

/-- R88: a job crosses the boundary held in the station's own aisle record. -/
def State.crosses (s : State) (j : JobRecord) : Bool :=
  s.cfg.craneEnd.tandem &&
    match s.ownAisle with
    | some a =>
      !(s.cfg.craneEnd.ownSide (orZero a.boundary) (segment j.srcPos)
        && s.cfg.craneEnd.ownSide (orZero a.boundary) (segment j.dstPos))
    | none => true

/-- The own aisle's record is TANDEM with both stations present (R130). -/
def State.aisleSet (s : State) : Bool :=
  match s.ownAisle with
  | some a => a.form == .tandem && a.state == .set
  | none => false

/-- R112: the partner: the station held in the own aisle's record as the other end's. -/
def State.partner (s : State) : Option Station := s.ownAisle.bind fun a => a.field s.cfg.craneEnd.opposite

/-- R112: the penalty term. -/
def State.penalty (s : State) (j : JobRecord) : Nat :=
  if s.crosses j && s.aisleSet then
    (match s.partner.bind s.rep.station with
      | some t => t.backlog
      | none => 0) + 4 * s.cfg.pTime / 10
  else 0

/-- R110: the start point of the approach. -/
def State.approachStart (s : State) (ahead : List RunJob) : Point :=
  match ahead.getLast?.bind fun r => s.rep.entry r.id with
  | some e => e.job.dest
  | none => s.seqr.crane.start

/-- R109–R112: the cost of a bid or chain award for an entry. -/
def State.cost (s : State) (e : JobEntry) : Nat :=
  let ahead := s.seqr.runList.take (insertPlace s.seqr.runList e.job)
  let a0 := ahead.foldl (fun a r => a.add r.remaining 1) Accumulator.start
  let a1 := a0.add (s.profile.travel 0 (s.approachStart ahead) e.job.source) 1
  let a2 := a1.add (s.profile.travel e.loadClass e.job.source e.job.dest) 1
  let a3 := ((a2.add s.cfg.pickTime 1).add s.cfg.dropTime 1).add s.cfg.rearExtra e.job.rearCount
  (a3.add (s.penalty e.job) 1).cost

/-! ## Learning (R115, R116) -/

/-- R116: an entry after a correction: the difference divided by 8 toward minus infinity, held at 65534 and at 1. -/
def corrected (entry measured estimate : Nat) : Nat :=
  holdTime ((entry : Int) + ((measured : Int) - (estimate : Int)) / 8).toNat

/-- R115: the measured time of a step, in whole cost units, held at 65535. -/
def State.measured (s : State) (st : Step) : Nat := min 65535 ((s.now - st.issueTime) / 10)

/-- R115, R187: learning is on; the free value of log 52 for a LEARN byte that is neither 0 nor 1. -/
def ConfigBlock.learns (cfg : ConfigBlock) : Bool :=
  if cfg.learn = 1 then true else if cfg.learn = 0 then false else Config.strayLearn (b8 cfg.learn)

/-- R115: the step makes a learning update at its completion on target. -/
def State.learns (s : State) (st : Step) : Bool :=
  s.cfg.learns && st.first && st.status == .outstanding && st.entry.isSome

/-- R116: the profile table after the learning update of a step. -/
def State.learned (s : State) (st : Step) : ProfileTable :=
  match st.entry with
  | some i => s.profile.setIfInBounds i (corrected (s.profile.at i) (s.measured st) st.estimate)
  | none => s.profile

end Sys2Proof.Machine
end

