-- ==== Sys2Proof/Machine/RunList.lean ====
section
/-! DEFINITION. The run list and the crane record's shared operations (09_run_list_steps_and_crane_reports.md): insertion
(R149), milestones (R165), blocked heads (R150), jobs that leave (R151), the current step and the step set aside (R154),
surrender (R163). -/

namespace Sys2Proof.Machine

/-- R148: the head: the first job whose phase is not FINISHING. -/
def Sequencer.head (q : Sequencer) : Option RunJob := q.runList.find? fun r => r.phase != .finishing

/-- The run-list job of an id. -/
def Sequencer.job (q : Sequencer) (id : JobId) : Option RunJob := q.runList.find? fun r => r.id == id

/-- R92, R148: the run-list length plus the pending awards. -/
def Sequencer.taken (q : Sequencer) : Nat := q.runList.length + q.awards.length

/-- The run-list job of the current step, when the step has a job and it stands in the list (R158, R162). -/
def Sequencer.stepJob (q : Sequencer) (st : Step) : Option RunJob := st.job.bind q.job

/-! ## Milestones (R165) -/

/-- R67: the codes of the milestones. -/
def msStarted : Nat := 1
/-- R67. -/
def msPicked : Nat := 2
/-- R67. -/
def msDone : Nat := 3
/-- R67. -/
def msFailed : Nat := 4
/-- R67. -/
def msStranded : Nat := 5
/-- R67. -/
def msReleased : Nat := 6

/-- R165: a milestone set on a run-list job: no further one after a final milestone, and one of each; a final milestone
makes the job FINISHING with remaining estimate 0. -/
def RunJob.mark (r : RunJob) (m detail stamp : Nat) : RunJob :=
  if r.finalSent then r
  else
    let marks := if r.marks.any fun k => k.milestone == m then r.marks
      else r.marks ++ [{ milestone := m, detail := detail, stamp := stamp }]
    if m ≤ msPicked then { r with marks := marks }
    else { r with marks := marks, finalSent := true, phase := .finishing, remaining := 0 }

/-- The run-list job of an id changed. -/
def Sequencer.update (q : Sequencer) (id : JobId) (f : RunJob → RunJob) : Sequencer :=
  { q with runList := q.runList.map fun r => if r.id == id then f r else r }

/-- R165, R167: a milestone set for a job; none is set while FAULTED. -/
def State.milestone (s : State) (id : JobId) (m detail : Nat) : State :=
  if s.mem.st == .faulted then s
  else { s with stamp := s.stamp + 1, seqr := s.seqr.update id fun r => r.mark m detail s.stamp }

/-- R167: a change of a run-list job's phase, loaded mark or class; none is made while FAULTED. -/
def State.advance (s : State) (id : JobId) (f : RunJob → RunJob) : State :=
  if s.mem.st == .faulted then s else { s with seqr := s.seqr.update id f }

/-! ## Insertion (R149) -/

/-- R149: the run-list job made for an entry. -/
def JobEntry.runJob (e : JobEntry) : RunJob where
  id := e.id
  urgent := e.job.urgent
  phase := .waiting
  remaining := 0
  loaded := false
  loadClass := e.loadClass
  marks := []
  finalSent := false

/-- R149: an accepted job enters the run list; released at once while the crane is MANUAL or OUT_OF_SERVICE. The list holds no
job twice (R148): one that it holds already stays as it stands (log 35). -/
def State.insertRun (s : State) (e : JobEntry) : State :=
  let l := s.seqr.runList
  if l.any fun r => r.id == e.id then s
  else
    let i := insertPlace l e.job
    let s1 := { s with seqr.runList := l.take i ++ [e.runJob] ++ l.drop i }
    let s2 := if s.seqr.crane.state == .manual || s.seqr.crane.state == .outOfService then
        s1.milestone e.id msReleased 0
      else s1
    s2.reestimate

/-! ## Leaving the list (R151) -/

/-- A step loses a job that left the list (R151: it completes as a step with no job). -/
def Step.orphaned (p : JobId → Bool) (st : Step) : Step := if st.job.any p then { st with job := none } else st

/-- R151, R167: the run-list jobs whose id satisfies `p` leave, with their marks; the estimates are computed anew. None leaves
while FAULTED. -/
def State.leaveRun (s : State) (p : JobId → Bool) : State :=
  if s.mem.st != .faulted && s.seqr.runList.any (fun r => p r.id) then
    State.reestimate { s with
      seqr.runList := s.seqr.runList.filter fun r => !p r.id
      seqr.crane.step := s.seqr.crane.step.map (Step.orphaned p)
      seqr.crane.setAside := s.seqr.crane.setAside.map fun x => (x.1.orphaned p, x.2) }
  else s

/-! ## Blocked heads (R150) -/

/-- R150: a WAITING job whose predecessor is on the own board and live. -/
def State.blocked (s : State) (r : RunJob) : Bool :=
  r.phase == .waiting &&
    match s.rep.entry r.id with
    | some e => s.rep.predLive e.job
    | none => false

/-- R150: the predecessor of the head stands in the run list ahead of it. -/
def State.predAhead (s : State) (r : RunJob) : Bool :=
  match s.rep.entry r.id with
  | some e => (s.seqr.runList.takeWhile fun x => x.id != r.id).any fun x => x.id == e.job.pred
  | none => false

/-- R150: a blocked head whose predecessor is not ahead of it is given up, then the next head is judged. The fuel is the
length of the list: each job is given up at most once. -/
def State.judgeHead : Nat → State → State
  | 0, s => s
  | n + 1, s =>
    match s.seqr.head with
    | some r =>
      if s.mem.st != .faulted && s.blocked r && !s.predAhead r then (s.milestone r.id msReleased 0).judgeHead n else s
    | none => s

/-- R150: the judgement of the head. -/
def State.judgeHeads (s : State) : State := s.judgeHead s.seqr.runList.length

/-! ## The current step (R152, R154) -/

/-- R154: the current step becomes absent; a step set aside becomes current again, HELD, with its retry count. -/
def Crane.clearStep (c : Crane) : Crane :=
  match c.setAside with
  | some (st, n) => { c with step := some { st with status := .held }, retry := n, setAside := none }
  | none => { c with step := none }

/-- The current step takes a status. -/
def Crane.withStatus (c : Crane) (status : StepStatus) : Crane :=
  { c with step := c.step.map fun st => { st with status := status } }

/-- A crane state with the stall cause that goes with it; none but in STALLED (log 18). -/
def Crane.become (c : Crane) (state : CraneState) (stall : StallCause) : Crane :=
  { c with state := state, stall := stall }

/-- The crane record changed. -/
def State.withCrane (s : State) (f : Crane → Crane) : State := { s with seqr.crane := f s.seqr.crane }

/-! ## Surrender (R163) -/

/-- R163: the milestone a job takes at a surrender: STRANDED for a loaded head, RELEASED for any other; none for a job
that has set its final milestone. -/
def surrenderOf (head : Option JobId) (r : RunJob) : Option Nat :=
  if r.finalSent then none
  else if head == some r.id && r.loaded then some msStranded
  else some msReleased

/-- R163: one job of the list, in its turn. -/
def State.surrenderJob (head : Option JobId) (s : State) (r : RunJob) : State :=
  match surrenderOf head r with
  | some m => s.milestone r.id m 0
  | none => s

/-- R163: the run list is surrendered: milestones in list order, the current step and a step set aside ended, the retry
count 0. -/
def State.surrender (s : State) : State :=
  let s1 := s.seqr.runList.foldl (State.surrenderJob (s.seqr.head.map RunJob.id)) s
  s1.withCrane fun c => { c with step := none, setAside := none, retry := 0 }

end Sys2Proof.Machine
end

