-- ==== Sys2Proof/Machine/Boundary.lean ====
section
/-! DEFINITION. The Boundary Unit (08_aisle_boundaries.md): sides and the safety rule (R134, R135), the judging of an own
ask (R137, R142), of a partner's ask (R139) and of a deferral (R140), and the ends of asks (R133, R144). -/

namespace Sys2Proof.Machine

/-- R134: the segments of a path, from one rail position to another, both included. -/
def pathSegments (a b : Nat) : List Nat :=
  let lo := min (segment a) (segment b)
  let hi := max (segment a) (segment b)
  (List.range (hi - lo + 1)).map fun i => lo + i

/-- R134: the conceded segments of the end whose side shrinks, when the boundary moves from `b` to `v`. -/
def CraneEnd.concedes (e : CraneEnd) (b v seg : Nat) : Bool :=
  match e with
  | .high => decide (b + 1 ≤ seg ∧ seg ≤ v)
  | .low => decide (v ≤ seg ∧ seg + 1 ≤ b)
  | _ => false

/-- The boundary held in the own aisle's record. -/
def State.boundary (s : State) : Option Nat := s.ownAisle.map fun a => orZero a.boundary

/-- R135: a segment lies among the conceded segments of a partner ask that is DEFERRED or GRANTING. -/
def State.conceded (s : State) (seg : Nat) : Bool :=
  match s.boundary, s.bnd.partnerAsk with
  | some b, .deferred v _ => s.cfg.craneEnd.concedes b v seg
  | some b, .granting v _ => s.cfg.craneEnd.concedes b v seg
  | _, _ => false

/-- R135: the own board holds the aisle's record and every segment of the path lies on the own side. -/
def State.sideSafe (s : State) (target : Nat) : Bool :=
  match s.boundary with
  | some b => (pathSegments s.seqr.crane.pos target).all (s.cfg.craneEnd.ownSide b)
  | none => false

/-- R135: a step may be issued. -/
def State.stepSafe (s : State) : StepAct → Bool
  | .travel p _ => s.sideSafe p && (pathSegments s.seqr.crane.pos p).all fun g => !s.conceded g
  | .pick .. | .drop .. => !s.conceded (segment s.seqr.crane.pos)

/-! ## The own ask -/

/-- R142: the boundary that a BOUNDARY_WAIT carries: b as the board holds it; where it holds no record of the own aisle, as in
SYNCING, a free value (log 6). -/
def State.shownBoundary (s : State) : Nat := s.boundary.getD (Config.freeByte s.fresh).toNat

/-- R142: a BOUNDARY_WAIT notice, once per head job. -/
def State.giveWait (s : State) (value reason : Nat) : State :=
  match s.seqr.head with
  | some r =>
    if s.bnd.lastWaited = some r.id then s
    else { s with bnd.lastWaited := some r.id, fresh := s.fresh + 1 }.give
      (noticeWait r.id s.cfg.aisle s.shownBoundary value reason)
  | none => s

/-- R192: BOUNDARY_WAIT reasons. -/
def waitFrozen : Nat := 4
/-- R192. -/
def waitReach : Nat := 5

/-- R137: the needed segments for a held step of the head job. -/
def State.needed (s : State) (r : RunJob) (act : StepAct) : List Nat :=
  let target := match act with
    | .travel p _ => [segment p]
    | _ => []
  let ends := match s.rep.entry r.id with
    | some e => (if r.loaded then [] else [segment e.job.srcPos]) ++ [segment e.job.dstPos]
    | none => []
  segment s.seqr.crane.pos :: (target ++ ends)

/-- R137: the value to ask for, when it lies in 1–14. -/
def askValue (e : CraneEnd) (needed : List Nat) : Option Nat :=
  let v := match e with
    | .low => needed.foldl max 0 + 1
    | .high => needed.foldl min 16 - 1
    | _ => 0
  if 1 ≤ v ∧ v ≤ 14 then some v else none

/-- R137: the Boundary Unit judges whether to ask for rail for a held-back step of the head job. DESIGN CHOICE: of the
findings that keep it from asking, a FROZEN record is judged first, then an ask or the re-ask timer active, then REACH
(log 71). -/
def State.judgeAsk (s : State) (r : RunJob) (act : StepAct) : State :=
  match s.ownAisle with
  | none => s
  | some a =>
    if !s.running || a.form != .tandem then s
    else if a.state == .frozen then s.giveWait 0 waitFrozen
    else
      match s.bnd.ownAsk, s.bnd.partnerAsk, s.bnd.reAsk with
      | .none, .none, .stopped | .none, .none, .expired =>
        match askValue s.cfg.craneEnd (s.needed r act), s.partner with
        | some v, some p => { s with bnd.ownAsk := .sending v p, bnd.askMark := some s.stamp, stamp := s.stamp + 1 }
        | some _, none => s
        | none, _ => s.giveWait 0 waitReach
      | _, _, _ => s

/-! ## The partner's ask (R139, R140) -/

/-- R138: the reasons of a REFUSE. -/
def refuseCrossing : Nat := 1
/-- R138. -/
def refuseUnable : Nat := 2
/-- R138. -/
def refuseStale : Nat := 3

/-- The answer mark REFUSE to a peer. -/
def State.markRefuse (s : State) (value reason : Nat) (peer : Station) : State :=
  { s with bnd.answer := .refuse value reason peer s.stamp, stamp := s.stamp + 1 }

/-- The partner ask becomes GRANTING and the answer mark GRANT. -/
def State.markGrant (s : State) (value : Nat) (peer : Station) : State :=
  { s with bnd.partnerAsk := .granting value peer, bnd.answer := .grant value peer s.stamp, stamp := s.stamp + 1 }

/-- R139, R140: the crane states that make it unable to yield. -/
def CraneState.unable : CraneState → Bool
  | .unknown | .stalled | .manual | .outOfService => true
  | _ => false

/-- R139, case 4: the rail position, and the target of any TRAVEL in flight, lie on the own side of `v`. -/
def State.clearNow (s : State) (v : Nat) : Bool :=
  s.cfg.craneEnd.ownSide v (segment s.seqr.crane.pos) && s.cfg.craneEnd.ownSide v (segment s.seqr.crane.start.1)

/-- R140: the rail position lies on the own side of `v`, and no step is in flight or the step in flight is a TRAVEL whose
target lies on that side. -/
def State.clearOf (s : State) (v : Nat) : Bool :=
  s.cfg.craneEnd.ownSide v (segment s.seqr.crane.pos) &&
    match s.seqr.crane.inFlight with
    | none => true
    | some st => match st.act with
      | .travel p _ => s.cfg.craneEnd.ownSide v (segment p)
      | _ => false

/-- R140: a deferral judged again. An unable crane comes first, then a clear one (log 21); the yield step is chosen where
steps are issued. -/
def State.judgeDeferral (s : State) : State :=
  match s.bnd.partnerAsk with
  | .deferred v p =>
    if s.seqr.crane.state.unable then { s with bnd.partnerAsk := .none }.markRefuse v refuseUnable p
    else if s.clearOf v then s.markGrant v p
    else s
  | _ => s

/-- R139: the value moves the boundary toward the partner taking the ask. -/
def CraneEnd.yieldsTo (e : CraneEnd) (b v : Nat) : Bool :=
  match e with
  | .high => decide (b < v)
  | _ => decide (v < b)

/-- R139: the partner takes an ASK with value `v` from `asker`, judged against boundary `b`. DESIGN CHOICE: one taken while a
partner ask stands is judged in the same way: a grant takes the place of the ask and of the answer mark, a deferral that of
the ask alone, an answer mark not yet turned into a frame standing beside it, and a refusal that of the answer mark alone,
the ask standing (log 51). -/
def State.takeAsk (s : State) (b v : Nat) (asker : Station) : State :=
  match s.bnd.ownAsk with
  | .waiting _ _ => s.markRefuse v refuseCrossing asker
  | _ =>
    if !s.cfg.craneEnd.yieldsTo b v then s.markRefuse v refuseStale asker
    else if s.seqr.crane.state.unable || !s.cfg.craneEnd.ownSide b (segment s.seqr.crane.pos) then
      s.markRefuse v refuseUnable asker
    else if s.clearNow v then s.markGrant v asker
    else State.judgeDeferral { s with bnd.partnerAsk := .deferred v asker }

/-! ## The ends of asks -/

/-- The station an own ask concerns. -/
def OwnAsk.peer : OwnAsk → Option Station
  | .none => .none
  | .sending _ p | .waiting _ p => some p

/-- The station a partner ask concerns. -/
def PartnerAsk.peer : PartnerAsk → Option Station
  | .none => .none
  | .deferred _ p | .granting _ p | .held _ p => some p

/-- The station an answer mark answers. -/
def AnswerMark.peer : AnswerMark → Option Station
  | .none => .none
  | .grant _ p _ | .refuse _ _ p _ => some p

/-- R133, R143: every ask is void, with the marks not yet turned into frames and the re-ask timer. -/
def BoundaryUnit.void (b : BoundaryUnit) : BoundaryUnit :=
  { b with ownAsk := .none, partnerAsk := .none, askMark := none, answer := .none, reAsk := .stopped }

/-- R133, R144: the asks that concern a station selected by `p` become NONE, and their marks not yet turned into frames are
cleared. -/
def BoundaryUnit.dropAsks (p : Station → Bool) (b : BoundaryUnit) : BoundaryUnit :=
  { b with
    ownAsk := if b.ownAsk.peer.any p then .none else b.ownAsk
    askMark := if b.ownAsk.peer.any p then none else b.askMark
    partnerAsk := if b.partnerAsk.peer.any p then .none else b.partnerAsk
    answer := if b.answer.peer.any p then .none else b.answer }

/-- R133: the station is the departed station's partner, by its own aisle's record or by an ask it holds (log 40). -/
def State.partnerOf (s : State) (n : Station) : Bool :=
  s.cfg.craneEnd.tandem && !s.cfg.isDispatch &&
    (s.partner == some n || s.bnd.ownAsk.peer == some n || s.bnd.partnerAsk.peer == some n || s.bnd.answer.peer == some n)

/-- R144: at the success of a resynchronisation the asks are judged against the rebuilt record of the own aisle. -/
def State.rejudgeAsks (s : State) : State :=
  let other := if s.aisleSet then s.partner else none
  let s1 := { s with bnd := s.bnd.dropAsks fun n => some n != other }
  match s1.bnd.partnerAsk with
  | .held v p => { s1 with bnd.partnerAsk := .none }.takeAsk (orZero s1.boundary) v p
  | _ => s1

end Sys2Proof.Machine
end

