-- ==== Sys2Proof/Machine/Allot.lean ====
section
/-! DEFINITION. The Allotment Engine (05_bidding_and_award.md): eligibility (R87, R88), bid windows and bids (R86, R89),
pending awards (R92), chain claims (R95), custodial timers and marks (R97–R101), and the removal of records (R85). -/

namespace Sys2Proof.Machine

/-- The allotment record of a job. -/
def State.allotment (s : State) (id : JobId) : Option AllotRecord := findKey AllotRecord.job id s.allot

/-- An allotment record made, or put in place of the one of its job. -/
def State.putAllot (s : State) (a : AllotRecord) : State := { s with allot := putKey AllotRecord.job a s.allot }

/-! ## Eligibility -/

/-- R87, R91, R95: the crane state is IDLE or STEPPING. -/
def CraneState.works : CraneState → Bool
  | .idle | .stepping => true
  | _ => false

/-- R87: the conditions aisle, fit, reach, class, dock and boundary. -/
def State.suits (s : State) (e : JobEntry) : Bool :=
  e.job.aisle == s.cfg.aisle && e.job.fits s.cfg.craneEnd && e.job.within s.cfg.craneEnd
    && decide (e.loadClass ≤ s.cfg.rated) && s.rep.dockOpen false e.job && (!s.crosses e.job || s.aisleSet)

/-- R91, R92, R95: a crane station that is ACTIVE, its crane IDLE or STEPPING, with room in the run list. -/
def State.claims (s : State) : Bool :=
  !s.cfg.isDispatch && s.mem.st == .active && s.seqr.crane.state.works
    && decide (s.seqr.taken < Config.runCapacity)

/-- R87: the station is eligible to bid for an entry. -/
def State.eligible (s : State) (e : JobEntry) : Bool := s.claims && s.suits e

/-! ## Bids and awards -/

/-- R89: the BID payload. -/
def bidPayload (id : JobId) (attempt cost : Nat) : List Byte := be16 id ++ [b8 attempt] ++ be16 cost

/-- R93: the AWARD payload. -/
def awardPayload (id : JobId) (attempt cost : Nat) (mode : AwardMode) : List Byte :=
  be16 id ++ [b8 attempt] ++ be16 cost ++ [b8 mode.code]

/-- R26, R92: an AWARD is offered; if it joins it is the job's pending award (one for a job, log 41), the last of the list
(log 59); if it is dropped there is none. -/
def State.offerAward (s : State) (id : JobId) (attempt cost : Nat) (mode : AwardMode) : State :=
  if s.admits then
    let s1 := s.enqueue .award (awardPayload id attempt cost mode) .fixed
    { s1 with seqr.awards := dropKey PendingAward.job id s1.seqr.awards
                ++ [{ job := id, mode := mode, attempt := attempt }] }
  else s

/-- R85, R28: a QUEUED own BID is withdrawn. -/
def State.withdrawBid (s : State) (a : AllotRecord) : State :=
  if a.ownBid == .queued then s.withdraw (TxFrame.bidFor a.job) else s

/-- R86, R87, R89: a bid window starts for an OPEN entry at its attempt: the record is made or restarted, and an eligible
crane station offers its BID. -/
def State.openWindow (s : State) (e : JobEntry) : State :=
  let s1 := match s.allotment e.id with
    | some a => s.withdrawBid a
    | none => s
  let bids := s1.eligible e && s1.admits
  let s2 := s1.putAllot { job := e.id, attempt := e.attempt, window := .running (s1.now + s1.cfg.wTime)
                          ownBid := if bids then .queued else .none, timer := .none, mark := .none }
  if bids then s2.enqueue .bid (bidPayload e.id e.attempt (s1.cost e)) .fixed else s2

/-- R85: the record of a job is removed: a QUEUED BID is withdrawn, the timer and an unqueued mark go with it. -/
def State.dropAllot (s : State) (id : JobId) : State :=
  match s.allotment id with
  | some a => { s with allot := dropKey AllotRecord.job id s.allot }.withdrawBid a
  | none => s

/-- R102, R103, R104: every record is removed. -/
def State.clearAllot (s : State) : State := (s.allot.map AllotRecord.job).foldl State.dropAllot s

/-! ## The custodian (R97–R101) -/

/-- R56: the station is the custodian of a job on its own replica. -/
def State.isCustodian (s : State) (id : JobId) : Bool := s.rep.custodian id == some s.me

/-- R97, R101: the custodial timer started now: AWARD_TIMEOUT of 2W for a list that is not empty, REOFFER_WAIT of Q
otherwise. -/
def State.custodialTimer (s : State) (e : JobEntry) : CustodialTimer :=
  if e.bids.isEmpty then .reofferWait (s.now + 1000 * s.cfg.qTime) else .awardTimeout (s.now + 2 * s.cfg.wTime)

/-- R98, R99: the custodial mark for an attempt: RE_OFFER below 255, EXHAUST at 255. -/
def custodialMark (attempt stamp : Nat) : CustodialMark :=
  if attempt < 255 then .reOffer (attempt + 1) stamp false else .exhaust stamp false

/-- R85: the mark without one whose frame is not yet queued. -/
def CustodialMark.unqueuedCleared : CustodialMark → CustodialMark
  | .reOffer _ _ false | .exhaust _ false => .none
  | m => m

/-- R86, R99: an entry that became OPEN without opening an attempt: a record with window CLOSED, and the custodian's
mark. -/
def State.openIdle (s : State) (e : JobEntry) : State :=
  let mine := s.isCustodian e.id
  let s1 := s.putAllot { job := e.id, attempt := e.attempt, window := .closed, ownBid := .none, timer := .none
                         mark := if mine then custodialMark e.attempt s.stamp else .none }
  if mine then s1.stamped else s1

/-- R101: the custodian of an entry judged anew, `before` saying whether the station was it. -/
def State.custodianChange (s : State) (before : Bool) (e : JobEntry) : State :=
  match s.allotment e.id with
  | none => s
  | some a =>
    let now := s.isCustodian e.id
    if before == now then s
    else if now then
      if a.window == .closed && a.mark == .none then s.putAllot { a with timer := s.custodialTimer e } else s
    else s.putAllot { a with timer := .none, mark := a.mark.unqueuedCleared }

/-- R85, R86, R99, R101: the record of one OPEN entry after an application; `old` is the entry as it stood before. -/
def State.syncEntry (before : Replica) (s : State) (e : JobEntry) : State :=
  match before.entry e.id with
  | some o =>
    if o.attempt ≠ e.attempt then s.openWindow e
    else if o.state == .opened then s.custodianChange (before.custodian e.id == some s.me) e
    else s.openIdle e
  | none => s.openWindow e

/-- The entry of a job is OPEN on the board. -/
def Replica.isOpen (r : Replica) (id : JobId) : Bool :=
  match r.entry id with
  | some e => e.state == .opened
  | none => false

/-- R85, R86, R99, R101: the allotment records follow an application that changed the board from `before`. Records are
held in ACTIVE alone. -/
def State.syncAllot (before : Replica) (s : State) : State :=
  if s.mem.st == .active then
    let s1 := ((s.allot.map AllotRecord.job).filter fun id => !s.rep.isOpen id).foldl State.dropAllot s
    (s1.rep.jobs.filter fun e => e.state == .opened).foldl (State.syncEntry before) s1
  else s

/-- R103: the records made at the success of a resynchronisation. -/
def State.rebuildAllot (s : State) : State :=
  (s.rep.jobs.filter fun e => e.state == .opened).foldl (fun s e =>
    s.putAllot { job := e.id, attempt := e.attempt, window := .closed, ownBid := .none
                 timer := if s.isCustodian e.id then s.custodialTimer e else .none, mark := .none }) s

/-! ## Chain claims (R95) -/

/-- R95: the station is a chain claimant for an entry. -/
def State.chainClaims (s : State) (e : JobEntry) : Bool :=
  s.claims && e.state == .held && e.attempt == 0
    && (match s.rep.entry e.job.pred with
        | some p => p.runBy s.me
        | none => false)
    && !(s.seqr.awards.any fun a => a.job == e.id) && s.suits e

/-- R95: the chain claims judged in ascending order of job id, each CHAIN AWARD that joins counting before the next. -/
def State.judgeChain (s : State) : State :=
  (s.rep.jobs.filter fun e => e.state == .held).foldl
    (fun s e => if s.chainClaims e then s.offerAward e.id 0 (s.cost e) .chain else s) s

end Sys2Proof.Machine
end

