-- ==== Sys2Proof/Machine/Endings.lean ====
section
/-! DEFINITION. What each ending leaves in every table: reset (R194 and the chapters' tables), leaving (R36, R57), entry into
FAULTED (R55), into DRAINING (R52), and the marks that wait to be turned into frames (R27). -/

namespace Sys2Proof.Machine

/-! ## Waiting marks (R27) -/

/-- A pending mark not yet turned into a frame. -/
inductive Mark where
  | join
  | leave
  | lost (peer : Station)
  | milestone (job : JobId) (mark : MilestoneMark)
  | ask (value : Nat)
  | answer (act value reason : Nat)
  | resolveAisle (aisle boundary : Nat)
  | dock (number count : Nat)
  | board (mark : BoardMark)
  | reOffer (entry : JobEntry) (attempt : Nat)
  | exhaust (job : JobId)
  | offer (job : JobRecord)
  | snapHead (requester : Station)
  | snapNext (requester : Station)
deriving DecidableEq, Repr

/-- The mark of least age among marks with their ages. -/
def oldest : List (Nat × Mark) → Option Mark
  | [] => none
  | (n, m) :: t =>
    match t.map Prod.fst |>.min? with
    | some k => if n ≤ k then some m else oldest t
    | none => some m

/-- R27, producer 1: JOIN, LEAVE, then the LOST of the lowest-numbered peer (R51). -/
def State.memberMark (s : State) : Option Mark :=
  if s.mem.joinMark then some .join
  else if s.mem.leaveFrame == .marked then some .leave
  else s.mem.lostMarks.min?.map .lost

/-- R27, producer 2: the milestones in the order in which they were set across the whole list (R165). -/
def State.milestoneMark (s : State) : Option Mark :=
  oldest (s.seqr.runList.flatMap fun r => r.marks.map fun k => (k.stamp, .milestone r.id k))

/-- R27, producer 3: the ASK and answer marks, oldest first, and on a dispatch station the RESOLVE marks in list order
(R143). -/
def State.boundaryMark (s : State) : Option Mark :=
  let ask := match s.bnd.askMark, s.bnd.ownAsk with
    | some n, .sending v _ => [(n, Mark.ask v)]
    | _, _ => []
  let answer := match s.bnd.answer with
    | .none => []
    | .grant v _ n => [(n, Mark.answer 2 v 0)]
    | .refuse v reason _ n => [(n, Mark.answer 3 v reason)]
  match oldest (ask ++ answer) with
  | some m => some m
  | none => s.bnd.resolveMarks.head?.map fun p => .resolveAisle p.1 p.2

/-- R27, producer 6: the custodial marks whose frame is not yet queued, oldest first (R100). -/
def State.custodyMark (s : State) : Option Mark :=
  oldest (s.allot.filterMap fun a =>
    match a.mark, s.rep.entry a.job with
    | .reOffer n stamp false, some e => some (stamp, .reOffer e n)
    | .exhaust stamp false, _ => some (stamp, .exhaust a.job)
    | _, _ => none)

/-- R27, producer 8: the snapshot mark, at most one snapshot frame queued at a time (R175). -/
def State.snapshotMark (s : State) : Option Mark :=
  if s.link.txq.any fun f => f.fill.snapshot then none
  else match s.cons.serving, s.cons.mark with
    | some r, .head => some (.snapHead r)
    | some r, .next => some (.snapNext r)
    | _, _ => none

/-- R27: the mark to be turned into a frame next, in the order of producers, as the station state lets each producer
(R13, R72, R125, R143, R165). -/
def State.nextMark (s : State) : Option Mark :=
  match s.mem.st with
  | .offline | .faulted => none
  | .listening => s.memberMark
  | .syncing => s.memberMark <|> s.milestoneMark
  | .active | .draining =>
    s.memberMark <|> s.milestoneMark <|> s.boundaryMark
      <|> (s.dockMarks.head?.map fun p => .dock p.1 p.2)
      <|> (s.board.marks.head?.map .board)
      <|> s.custodyMark
      <|> (if s.mem.st == .active then (s.board.offers.find? fun o => !o.queued).map fun o => .offer o.job else none)
      <|> s.snapshotMark

/-! ## The end of a serve (R177) -/

/-- R177: a queued snapshot frame of an ended serve is filled at its start as a SNAP_END. -/
def TxFrame.endServe (f : TxFrame) : TxFrame :=
  match f.fill with
  | .snapHead r | .snapNext r => { f with fill := .snapEnded r }
  | _ => f

/-- R177: the serve ends early. -/
def State.endServe (s : State) : State :=
  match s.cons.serving with
  | none => s
  | some _ => { s with cons.serving := none, cons.sent := [], cons.mark := .none
                       link.txq := s.link.txq.map TxFrame.endServe }

/-! ## Lists given up with REFUSED notices (R14, R72, R125, R143) -/

/-- The REFUSED notices of the marks and records removed on entering FAULTED or OFFLINE by eviction or SYNC_FAILED. -/
def State.refusals (s : State) : List (List Byte) :=
  (s.board.offers.map fun o => noticeRefused 5 wrongState 0 o.job.id)
    ++ (s.board.marks.map fun
        | .cancel id => noticeRefused 6 wrongState 0 id
        | .resolve id _ => noticeRefused 8 wrongState 0 id)
    ++ (s.dockMarks.map fun p => noticeRefused 7 wrongState 0 p.1)
    ++ (s.bnd.resolveMarks.map fun p => noticeRefused 9 wrongState 0 p.1)

/-! ## Leaving (R36, R57, R84, R104, R129, R147, R168, R169) -/

/-- R36: the line's use after a leaving: an own frame on the line runs to its end under the number it was sent with. -/
def LineUse.departing (n : Station) : LineUse → LineUse
  | .own => .departed n
  | l => l

/-- R151, R168: the steps after the run list is emptied: a step in flight stays, as a step with no job. -/
def Crane.jobless (c : Crane) : Crane :=
  { c with step := c.step.map fun st => { st with job := none }
           setAside := c.setAside.map fun x => ({ x.1 with job := none }, x.2) }

/-- A leaving: STATE notice and latch, the REFUSED notices of the lists given up, and every table as the chapters give. -/
def State.leave (s : State) (cause : Cause) : State :=
  let s1 := (s.setStation .offline cause).giveAll s.refusals
  { s1 with
    link := { Link.cleared s.now with line := s.link.line.departing s.me }
    mem := Membership.cleared cause
    rep := Replica.empty
    board := { offers := [], seqCounter := s.board.seqCounter, marks := [] }
    allot := []
    dockMarks := []
    bnd := BoundaryUnit.cleared
    seqr := { runList := [], awards := [], crane := s.seqr.crane.jobless }
    cons := Consistency.cleared }

/-! ## FAULTED (R35, R55, R104, R143, R147, R167, R177, R183) -/

/-- Entry into FAULTED; a report in OFFLINE or FAULTED changes nothing. DESIGN CHOICE: the collision count stays as it stands,
that of a head frame removed here after one or two collisions too (log 39); and of the requester's fields ROLE_CONFLICT
stops the phase and the timer, as DUPLICATE does (R183), and leaves the others as they stand (log 69). -/
def State.fault (s : State) (cause : Cause) : State :=
  if s.mem.st == .offline || s.mem.st == .faulted then s
  else
    let s1 := ((s.endServe).setStation .faulted cause).giveAll s.refusals
    { s1 with
      link.txq := if s1.link.line == .own then s1.link.txq.take 1 else []
      mem.listenTimer := .stopped
      mem.founding := false
      mem.presence := .stopped
      mem.silence := []
      mem.joinMark := false
      mem.leaveFrame := .none
      mem.lostMarks := []
      board.offers := []
      board.marks := []
      allot := []
      dockMarks := []
      bnd := { s1.bnd.void with resolveMarks := [] }
      seqr.awards := []
      seqr.runList := s1.seqr.runList.map fun r => { r with marks := [] }
      cons.phase := .none
      cons.snapTimer := .stopped }

/-! ## Reset (R194) -/

/-- R184, R194: a transaction made void. -/
def Transaction.voided (t : Transaction) : Transaction := { t with void := true }

/-- A reset: every block at its reset values; the clock, the model's counters and the waiting commands go on, and a
transaction in progress is void. -/
def State.resetAll (s : State) : State :=
  { State.reset with
    pending := s.pending
    now := s.now
    fresh := s.fresh
    stamp := s.stamp
    link := Link.cleared s.now
    port.txn := s.port.txn.map Transaction.voided }

/-! ## DRAINING (R14, R52, R102) -/

/-- R14: on entering DRAINING, the Offer List records whose OFFER is not queued are removed and reported. -/
def State.dropUnqueued (s : State) : State :=
  let s1 := s.giveAll ((s.board.offers.filter fun o => !o.queued).map fun o => noticeRefused 5 wrongState 0 o.job.id)
  { s1 with board.offers := s1.board.offers.filter OfferItem.queued }

/-- R52: the LEAVE mark is set at the first moment in DRAINING at which the run list is empty, no award is pending and no
mark waits. -/
def State.markLeave (s : State) : State :=
  if s.mem.st == .draining && s.mem.leaveFrame == .none && s.seqr.runList.isEmpty && s.seqr.awards.isEmpty
      && s.nextMark.isNone then
    { s with mem.leaveFrame := .marked }
  else s

/-! ## A command's frame -/

/-- A command's effect outside the port's bytes: while the RESET pin is held nothing else is taken (log 4); afterwards the
LEAVE mark is judged (R52). -/
def State.run (s : State) (f : State → State) : State := if s.port.resetHeld then s else (f s).markLeave

end Sys2Proof.Machine
end

