-- ==== Sys2Proof/Machine/Resync.lean ====
section
/-! DEFINITION. The requester's part of the Consistency Monitor (10_digest_and_resynchronisation.md): the start (R171), the
ask (R172), a failed try (R180), success (R181) and the reconciliation of the run list (R182); and what every block does
after an application that changed the replica. -/

namespace Sys2Proof.Machine

/-! ## After an application -/

/-- R151: the run-list jobs that an application takes out of the list: outside SYNCING every job whose entry is not run by
the station; in SYNCING a job whose held entry the application changed so (log 60 for a CANCEL of an entry that the partial
board did not have run by the station). -/
def State.ended (before : Replica) (s : State) (id : JobId) : Bool :=
  let runs (r : Replica) : Bool := match r.entry id with
    | some e => e.runBy s.me
    | none => false
  if s.mem.st == .syncing then runs before && !runs s.rep else !runs s.rep

/-- R95: the moments of the list at which chain claimants are judged after an application: an entry became HELD, the
station became an owner, a job left the run list, or a pending award ended. -/
def State.chainMoment (s before : State) : Bool :=
  (s.rep.jobs.any fun e => match before.rep.entry e.id with
    | some o => (e.state == .held && o.state != .held) || (e.runBy s.me && !o.runBy s.me)
    | none => e.state == .held)
  || (before.seqr.runList.any fun r => !(s.seqr.runList.any fun x => x.id == r.id))
  || decide (s.seqr.awards.length < before.seqr.awards.length)

/-- What follows the replica's part of every application: jobs leave the run list (R151), the head is judged (R150),
the allotment records follow the board (R85), and chain claimants are judged (R95); the order of the four is log 49's.
`before` is the state at the taking of the frame. -/
def State.settle (s before : State) : State :=
  let s1 := (s.leaveRun fun id => s.ended before.rep id).judgeHeads.syncAllot before.rep
  if s1.chainMoment before then s1.judgeChain else s1

/-! ## The ask (R172) -/

/-- The joiner's JOIN has not completed yet (R42): its mark or its frame waits. -/
def State.joinWaits (s : State) : Bool := s.mem.joinMark || s.link.txq.any fun f => f.kind == .join

/-- R172: the SYNC_ASK of the present try is offered, and the phase becomes ASKING; a dropped ask starts the snapshot
timer. -/
def State.offerAsk (s : State) : State :=
  let s1 := { s with cons.phase := .asking, cons.snapTimer := .stopped }
  if s1.admits then s1.enqueue .syncAsk [b8 (orZero s.cons.donor)] (.ask s.cons.tryNo)
  else { s1 with cons.snapTimer := .running (s1.now + s1.cfg.fourP) }

/-! ## The start (R171) -/

/-- R171: a resynchronisation starts with a candidate list, from a state other than SYNCING; a joiner whose JOIN has not
completed offers its ask at that completion (R42). DESIGN CHOICE: a DIGEST due on entering is offered before the ask (R48;
log 49). -/
def State.startResync (s : State) (candidates : List Station) : State :=
  let s1 := s.endServe
  let s2 := { s1 with
    rep := Replica.empty
    mem.silence := []
    cons.mismatch := 0
    cons.itemsApplied := 0
    cons.tryNo := 1
    cons.candidates := candidates
    cons.donor := candidates.head?
    cons.phase := .none }
  let s3 := ((s2.setStation .syncing .none).clearAllot).duedDigest
  if s3.joinWaits then s3 else s3.offerAsk

/-- R171: the candidates of a station that was ACTIVE or DRAINING: its Roster's numbers other than its own. -/
def State.rosterCandidates (s : State) : List Station :=
  (s.rep.roster.map StationItem.number).filter fun n => n != s.me

/-! ## Failed tries (R180) -/

/-- R171: the next number of the candidate list after the donor, or the first when the list is passed. -/
def nextDonor (candidates : List Station) (donor : Option Station) : Option Station :=
  match candidates.find? fun n => decide (orZero donor < n) with
  | some n => some n
  | none => candidates.head?

/-- R180: the present try fails; the third failure is a leaving with cause SYNC_FAILED. -/
def State.failTry (s : State) : State :=
  if 3 ≤ s.cons.tryNo then s.leave .syncFailed
  else
    let s1 := { s with
      rep := Replica.empty
      cons.sent := []
      cons.tryNo := s.cons.tryNo + 1
      cons.donor := nextDonor s.cons.candidates s.cons.donor
      cons.itemsApplied := 0
      cons.snapTimer := .stopped
      cons.phase := .none }
    if s1.joinWaits then s1 else s1.offerAsk

/-- R180: the donor of the present try was lost or left. -/
def State.donorGone (s : State) (n : Station) : State :=
  if s.mem.st == .syncing && s.cons.donor == some n then s.failTry else s

/-! ## Reconciliation (R182) -/

/-- R182: a run-list job is loaded when the crane's load names it. -/
def State.carries (s : State) (id : JobId) : Bool := s.seqr.crane.load == some id

/-- R182: the rebuilt board has the job AWARDED or ACTIVE with the station as owner. -/
def State.keeps (s : State) (id : JobId) : Bool :=
  match s.rep.entry id with
  | some e => e.runBy s.me
  | none => false

/-- R182: a loaded job the board does not keep: the crane is STALLED with cause CONFLICT. DESIGN CHOICE: the CRANE notice goes
before the CONFLICT notice (log 14). -/
def State.conflict (s : State) (id : JobId) : State :=
  let s1 := s.withCrane fun c => c.clearStep.become .stalled .conflict
  let s2 := if s.seqr.crane.state == .stalled then s1 else s1.give (noticeCrane s1.seqr.crane)
  match s.rep.entry id with
  | some e => s2.give (noticeConflict id e.state.code (orZero e.owner))
  | none => s2.give (noticeConflict id 0 0)

/-- R182: a run-list job appended for a board entry the list lacks, with its final milestone; not loaded, whatever its entry
says (log 61). -/
def JobEntry.appended (e : JobEntry) (stamp : Nat) : RunJob :=
  { e.runJob with
    phase := .finishing, finalSent := true
    marks := [{ milestone := if e.state == .active then msStranded else msReleased, detail := 0, stamp := stamp }] }

/-- R182: the reconciliation of the run list with the rebuilt board. -/
def State.reconcile (s : State) : State :=
  let out := s.seqr.runList.filter fun r => !s.keeps r.id
  let s1 := match out.find? fun r => s.carries r.id with
    | some r => s.conflict r.id
    | none => s
  let s2 := s1.leaveRun fun id => out.any fun r => r.id == id
  let s3 := (s2.rep.jobs.filter fun e => e.runBy s2.me && !(s2.seqr.runList.any fun r => r.id == e.id)).foldl
    (fun s e => { s with seqr.runList := s.seqr.runList ++ [e.appended s.stamp], stamp := s.stamp + 1 }) s2
  s3.reestimate

/-! ## Success (R181) -/

/-- R50: silence timers started for every Roster item other than the station's own. -/
def State.startSilence (s : State) : State :=
  { s with mem.silence := (s.rep.roster.filter fun t => t.number != s.me).map fun t =>
      (t.number, Timer.running (s.now + 3 * s.cfg.pTime)) }

/-- R80: the jobs restated to the site computer of a dispatch station. -/
def State.restate (s : State) : State :=
  if s.cfg.isDispatch then
    s.giveAll ((s.rep.jobs.filter fun e => s.rep.reporter e.id == some s.me).map fun e =>
      noticeJob e.id e.state.code (orZero e.owner) e.reason)
  else s

/-- R181: a successful resynchronisation, with what each block takes up (R50, R80, R103, R140, R144, R150). DESIGN CHOICE: the
STATE notice goes before the restated JOB notices (log 14), and a DIGEST due on entering is offered before the CHAIN AWARDs
(R48, R103; log 49). -/
def State.succeed (s : State) : State :=
  let s1 := { s with
    cons.phase := .none, cons.donor := none, cons.candidates := [], cons.itemsApplied := 0
    cons.snapTimer := .stopped, cons.mismatch := 0, link.loss := false }
  let s2 := (s1.reconcile).setStation (if s.mem.leaveMark then .draining else .active) .none
  let s3 := (s2.startSilence.restate.judgeHeads.rejudgeAsks.judgeDeferral).duedDigest
  if s3.mem.st == .active then s3.rebuildAllot.judgeChain else s3

/-- R179: the station's own item, with the role, aisle, end and served docks of its configuration. -/
def State.ownItemSound (s : State) : Bool :=
  match s.rep.station s.me with
  | none => false
  | some t =>
    if s.cfg.isDispatch then
      t.role == .dispatch && t.aisle == 0 && t.craneEnd == .absent && t.docks == ascending (s.cfg.docks.map (·.1))
    else t.role == .crane && t.aisle == s.cfg.aisle && t.craneEnd == s.cfg.craneEnd && t.docks.isEmpty

end Sys2Proof.Machine
end

