-- ==== Sys2Proof/Machine/Taking.lean ====
section
/-! DEFINITION. The taking of a frame from the head of the receive queue (R32, R38), and the shared parts of membership
frames: an arriving JOIN (R45, R46) and a departure (R53, R54, R133). -/

namespace Sys2Proof.Machine

/-! ## Taking -/

/-- The head of the receive queue leaves it. -/
def State.popFrame (s : State) : State := { s with link.rxq := s.link.rxq.tail }

/-- R38: the board-side blocks apply a frame: of a sender present in the Roster, or a JOIN or SYNC_ASK; in SYNCING the
parts of any frame that concern the items held (R173, log 28). -/
def State.hears (s : State) (f : Frame) : Bool :=
  s.mem.st == .syncing || s.rep.present f.sender || f.kind == .join || f.kind == .syncAsk

/-- R50: the silence timer of a sender restarts, in ACTIVE and DRAINING. -/
def State.restartSilence (s : State) (n : Station) : State :=
  { s with mem.silence := s.mem.silence.map fun p =>
      if p.1 == n then (n, .running (s.now + 3 * s.cfg.pTime)) else p }

/-- R38: in ACTIVE, DRAINING or SYNCING a head frame that `p` selects is taken, and has its effect unless it is
ignored. -/
def State.takeFrame (s : State) (p : Frame → Bool) (f : Frame → State → State) : State :=
  match s.link.rxq with
  | [] => s
  | fr :: _ =>
    if s.onLink && p fr then
      let s1 := s.popFrame
      if s1.hears fr then f fr (s1.restartSilence fr.sender) else s1
    else s

/-- An application whose effect on the replica is `f`, followed by what every block does after it. -/
def State.applyRep (s : State) (f : Rework → Rework) : State := (s.rework f).settle s

/-! ## Departures and joins -/

/-- R33: a departed station's sequence entry becomes unheard. -/
def Link.unhear (l : Link) (n : Station) : Link := { l with seqTable := l.seqTable.setIfInBounds n none }

/-- R51: a LOST mark not yet turned into a frame is cleared. -/
def Membership.forgetLost (m : Membership) (n : Station) : Membership :=
  { m with lostMarks := m.lostMarks.filter fun k => k != n }

/-- R133: the asks between a departed station and its partner are void, and the re-ask timer stops. -/
def State.voidAsks (s : State) (n : Station) : State :=
  if s.partnerOf n then { s with bnd := { s.bnd.dropAsks (fun k => k == n) with reAsk := .stopped } } else s

/-- R45, R53, R54: the presence of a station ends, with the event code of its ROSTER notice: replica, silence timer,
asks. -/
def State.depart (s : State) (n : Station) (event : Nat) : State :=
  let s1 := (s.voidAsks n).rework fun w => w.depart s.ctx n event
  { s1 with mem.silence := s1.mem.silence.filter fun p => p.1 != n }

/-- R53, R54: another present station is removed, and its sequence entry becomes unheard. -/
def State.remove (s : State) (n : Station) (event : Nat) : State :=
  if s.rep.present n then
    let s1 := s.depart n event
    { s1 with link := s1.link.unhear n }
  else s

/-- R45: the presence of a station still in the Roster ends as by a LOST naming it, a LOST mark held for it included
(log 47). -/
def State.rejoin (s : State) (n : Station) : State :=
  if s.rep.present n then { s with mem := s.mem.forgetLost n }.depart n 2 else s

/-- R45, R46: a JOIN applied: an earlier presence ends first, then it is judged. The silence timer of an accepted joiner
starts in ACTIVE and DRAINING (R50). -/
def State.join (s : State) (n : Station) (p : List Byte) : State :=
  let s1 := s.rejoin n
  let s2 := s1.rework fun w => w.join s.ctx s.mem.hash n p
  if s2.running && s2.rep.present n && n != s.me then
    { s2 with mem.silence := putKey Prod.fst (n, .running (s2.now + 3 * s2.cfg.pTime)) s2.mem.silence }
  else s2

end Sys2Proof.Machine
end

