-- ==== Sys2Proof/Machine/ApplyBoard.lean ====
section
/-! DEFINITION. The commands that take OFFER, BID, AWARD, PROGRESS, CANCEL, DOCK and RESOLVE frames
(04_the_job_board.md, 05_bidding_and_award.md, 07_dock_places.md, R146). -/

namespace Sys2Proof.Machine

/-- R24: the job record an OFFER carries. -/
def offeredJob (p : List Byte) : JobRecord := JobRecord.ofBytes (wordAt p 0) p 3

/-- R13: at the application of a record's own OFFER, which carries attempt 1, the record leaves the Offer List. An own OFFER of
a higher attempt is a re-offer (R98, R100), a stale one of a job retired since included, and takes no record out. -/
def State.offerGone (s : State) (f : Frame) : State :=
  if f.sender = s.me ∧ byteAt f.payload 2 = 1 then
    { s with board.offers := s.board.offers.filter fun o => !(o.queued && o.job.id == wordAt f.payload 0) }
  else s

/-- R62–R64: APPLY_OFFER. -/
def applyOffer (s : State) : State :=
  s.takeFrame (fun f => f.kind == .offer) fun f s =>
    (s.offerGone f).applyRep fun w => w.offer s.ctx f.sender (offeredJob f.payload) (byteAt f.payload 2)

/-- R90: APPLY_BID. -/
def applyBid (s : State) : State :=
  s.takeFrame (fun f => f.kind == .bid) fun f s =>
    s.applyRep fun w => w.bid f.sender (wordAt f.payload 0) (byteAt f.payload 2) (wordAt f.payload 3)

/-- R92: the pending award of an AWARD frame. -/
def Frame.awards (f : Frame) (a : PendingAward) : Bool :=
  a.job == wordAt f.payload 0 && a.attempt == byteAt f.payload 2 && a.mode.code == byteAt f.payload 5

/-- R92, R94: at the sender's own application its pending award for the job ends. -/
def State.endAward (s : State) (f : Frame) : State :=
  if f.sender = s.me then { s with seqr.awards := s.seqr.awards.filter fun a => !f.awards a } else s

/-- R93, R94, R96: an AWARD applied; `accepts` judges the entry. An accepted award of the station's own enters the run list
(R149). -/
def State.awarded (s : State) (f : Frame) (accepts : JobEntry → Bool) : State :=
  let s1 := s.endAward f
  match s1.rep.entry (wordAt f.payload 0) with
  | some e =>
    if accepts e then
      let s2 := s1.rework fun w => w.award s.ctx f.sender e
      (if f.sender = s.me then s2.insertRun e else s2).settle s
    else s1.settle s
  | none => s1.settle s

/-- R93: APPLY_AWARD_BID; a mode outside 1–2 is taken here too, and accepts nothing (log 16). -/
def applyAwardBid (s : State) : State :=
  s.takeFrame (fun f => f.kind == .award && byteAt f.payload 5 != 2) fun f s =>
    s.awarded f fun e => byteAt f.payload 5 == 1 && s.rep.acceptsBid s.ctx.syncing f.sender e (byteAt f.payload 2)

/-- R96: APPLY_AWARD_CHAIN. -/
def applyAwardChain (s : State) : State :=
  s.takeFrame (fun f => f.kind == .award && byteAt f.payload 5 == 2) fun f s =>
    s.awarded f fun e => s.rep.acceptsChain s.ctx.syncing f.sender e (byteAt f.payload 2)

/-! ## PROGRESS -/

/-- R67: a PROGRESS of a milestone; one outside 1–6 is taken by every row of the family, without effect (log 16). -/
def Frame.progress (m : Nat) (f : Frame) : Bool :=
  f.kind == .progress && (byteAt f.payload 2 == m || !(1 ≤ byteAt f.payload 2 && byteAt f.payload 2 ≤ 6))

/-- R67: the change an owner's milestone makes, when the frame carries that milestone. -/
def State.progress (s : State) (f : Frame) (m : Nat) (change : JobEntry → Rework → Rework) : State :=
  if byteAt f.payload 2 = m then s.applyRep fun w => w.byOwner f.sender (wordAt f.payload 0) change else s.settle s

/-- R151: at the station's own application of a final milestone the job leaves the run list, whatever the application did
to the entry. -/
def State.finalGone (s : State) (f : Frame) : State :=
  if f.sender = s.me ∧ 3 ≤ byteAt f.payload 2 ∧ byteAt f.payload 2 ≤ 6 then
    s.leaveRun fun id => id == wordAt f.payload 0
  else s

/-- R67, R68, R151: an owner's final milestone applied: the entry changes, and at the owner the job leaves the list. -/
def State.progressFinal (s : State) (f : Frame) (m : Nat) (change : JobEntry → Rework → Rework) : State :=
  if byteAt f.payload 2 = m then
    ((s.rework fun w => w.byOwner f.sender (wordAt f.payload 0) change).finalGone f).settle s
  else s.settle s

/-- R68: APPLY_PROGRESS_STARTED. -/
def applyProgressStarted (s : State) : State :=
  s.takeFrame (Frame.progress msStarted) fun f s => s.progress f msStarted (Rework.started s.ctx)

/-- R68: APPLY_PROGRESS_PICKED. -/
def applyProgressPicked (s : State) : State :=
  s.takeFrame (Frame.progress msPicked) fun f s =>
    s.progress f msPicked fun e w => w.picked e (byteAt f.payload 3)

/-- R68: APPLY_PROGRESS_DONE. -/
def applyProgressDone (s : State) : State :=
  s.takeFrame (Frame.progress msDone) fun f s => s.progressFinal f msDone (Rework.doneBy s.ctx)

/-- R68: APPLY_PROGRESS_FAILED: a FAILED with a detail other than EXHAUSTED. -/
def applyProgressFailed (s : State) : State :=
  s.takeFrame (fun f => Frame.progress msFailed f && !(byteAt f.payload 2 == msFailed && byteAt f.payload 3 == 4))
    fun f s => s.progressFinal f msFailed fun e w => w.failedBy s.ctx e (byteAt f.payload 3)

/-- R68: APPLY_PROGRESS_STRANDED. -/
def applyProgressStranded (s : State) : State :=
  s.takeFrame (Frame.progress msStranded) fun f s => s.progressFinal f msStranded (Rework.strandedBy s.ctx)

/-- R68: APPLY_PROGRESS_RELEASED. -/
def applyProgressReleased (s : State) : State :=
  s.takeFrame (Frame.progress msReleased) fun f s => s.progressFinal f msReleased (Rework.releasedBy s.ctx)

/-- R70: APPLY_PROGRESS_EXHAUSTED. -/
def applyProgressExhausted (s : State) : State :=
  s.takeFrame (fun f => f.kind == .progress && byteAt f.payload 2 == msFailed && byteAt f.payload 3 == 4)
    fun f s => s.applyRep fun w => w.exhausted s.ctx f.sender (wordAt f.payload 0)

/-! ## CANCEL, DOCK, RESOLVE -/

/-- R69, R166: a CANCEL that took effect on a job of the run list withdraws its STARTED when that has not started; the mark
leaves with the job (R151). -/
def State.withdrawStarted (s : State) (before : State) (id : JobId) : State :=
  let was := (before.rep.entry id).any JobEntry.cancellable
  let isNow := (s.rep.entry id).any fun e => e.state == .cancelled
  if was && isNow && (before.seqr.job id).isSome then s.withdraw (TxFrame.startedOf id) else s

/-- R73, R74: APPLY_CANCEL. -/
def applyCancel (s : State) : State :=
  s.takeFrame (fun f => f.kind == .cancel) fun f s =>
    let id := wordAt f.payload 0
    ((s.rework fun w => w.cancel s.ctx f.sender id).withdrawStarted s id).settle s

/-- R126: APPLY_DOCK. -/
def applyDock (s : State) : State :=
  s.takeFrame (fun f => f.kind == .dock) fun f s =>
    s.applyRep fun w => w.freed s.ctx f.sender (byteAt f.payload 0) (byteAt f.payload 1)

/-- R76: APPLY_RESOLVE_JOB; a form byte that is not that of the length has no effect (log 16). -/
def applyResolveJob (s : State) : State :=
  s.takeFrame (fun f => f.kind == .resolve && f.payload.length == 4) fun f s =>
    if byteAt f.payload 0 = 1 then
      s.applyRep fun w => w.resolveJob s.ctx f.sender (wordAt f.payload 1) (byteAt f.payload 3)
    else s.settle s

/-- R146: APPLY_RESOLVE_AISLE. -/
def applyResolveAisle (s : State) : State :=
  s.takeFrame (fun f => f.kind == .resolve && f.payload.length != 4) fun f s =>
    if byteAt f.payload 0 = 2 then
      s.applyRep fun w => w.resolveAisle s.ctx f.sender (byteAt f.payload 1) (byteAt f.payload 2)
    else s.settle s

end Sys2Proof.Machine
end

