-- ==== Sys2Proof/Machine/ApplyLink.lean ====
section
/-! DEFINITION. The commands that take BOUNDARY frames (R138–R144) and SYNC_ASK and snapshot frames (R174, R178, R179). -/

namespace Sys2Proof.Machine

/-! ## BOUNDARY -/

/-- R138: a BOUNDARY of an act; one outside 1–3 is taken by every row of the family, without effect (log 16). -/
def Frame.boundary (act : Nat) (f : Frame) : Bool :=
  f.kind == .boundary && (byteAt f.payload 1 == act || !(1 ≤ byteAt f.payload 1 && byteAt f.payload 1 ≤ 3))

/-- The frame names the aisle of a tandem crane station that applies it. -/
def State.ownBoundary (s : State) (f : Frame) : Bool :=
  !s.cfg.isDispatch && s.cfg.craneEnd.tandem && byteAt f.payload 0 == s.cfg.aisle

/-- R138, R142: the sender is the station held in the other field of the own aisle's record. -/
def State.fromPartner (s : State) (f : Frame) : Bool := s.partner == some f.sender && f.sender != s.me

/-- R138: the asker's own ASK of value `v`: the ask it was made for, SENDING with that value and its mark turned into a
frame, becomes WAITING; any other is a later ask, which it leaves as it is (log 53). -/
def State.askApplied (s : State) (v : Nat) : State :=
  match s.bnd.ownAsk with
  | .sending w p => if w = v ∧ s.bnd.askMark = none then { s with bnd.ownAsk := .waiting w p } else s
  | _ => s

/-- R144: an ASK taken while SYNCING is the partner ask HELD, replacing a HELD ask; a DEFERRED or GRANTING one is kept. -/
def State.holdAsk (s : State) (v : Nat) (asker : Station) : State :=
  match s.bnd.partnerAsk with
  | .none | .held _ _ => { s with bnd.partnerAsk := .held v asker }
  | _ => s

/-- R138, R139, R144: an ASK's part at this station; a value outside 1–14 is no ask (log 16). -/
def State.asked (s : State) (f : Frame) : State :=
  let v := byteAt f.payload 2
  if !s.ownBoundary f || v < 1 || 14 < v then s
  else if f.sender = s.me then s.askApplied v
  else if s.mem.st == .syncing then s.holdAsk v f.sender
  else if s.aisleSet && s.fromPartner f then s.takeAsk (orZero s.boundary) v f.sender
  else s

/-- R138: APPLY_BOUNDARY_ASK. -/
def applyBoundaryAsk (s : State) : State :=
  s.takeFrame (Frame.boundary 1) fun f s => (if byteAt f.payload 1 = 1 then s.asked f else s).settle s

/-- R141: an own ask that is WAITING becomes NONE at the asker. -/
def State.answered (s : State) : State :=
  match s.bnd.ownAsk with
  | .waiting _ _ => { s with bnd.ownAsk := .none }
  | _ => s

/-- R141: a partner ask that is GRANTING becomes NONE at the granter. -/
def State.grantApplied (s : State) : State :=
  match s.bnd.partnerAsk with
  | .granting _ _ => { s with bnd.partnerAsk := .none }
  | _ => s

/-- R141, R144: the sender of an answer is the station the asker waits for: the partner of its record, or in SYNCING, where
the partial table may lack the record, the station its own ask concerns. -/
def State.answersMe (s : State) (f : Frame) : Bool :=
  s.ownBoundary f && f.sender != s.me &&
    (if s.mem.st == .syncing then s.bnd.ownAsk.peer == some f.sender else s.fromPartner f)

/-- R141: APPLY_BOUNDARY_GRANT. -/
def applyBoundaryGrant (s : State) : State :=
  s.takeFrame (Frame.boundary 2) fun f s =>
    if byteAt f.payload 1 = 2 then
      let s1 := s.rework fun w => w.grant f.sender (byteAt f.payload 0) (byteAt f.payload 2)
      let s2 := if s.ownBoundary f && f.sender == s.me then s1.grantApplied else s1
      (if s.answersMe f then s2.answered else s2).settle s
    else s.settle s

/-- R142: a REFUSE of the own ask: the re-ask timer starts, and a BOUNDARY_WAIT once per head job. DESIGN CHOICE: a reason
outside 1–3 or a value outside 1–14 is taken, and shown as carried (log 66). -/
def State.refused (s : State) (f : Frame) : State :=
  match s.bnd.ownAsk with
  | .waiting _ _ =>
    { s with bnd.ownAsk := .none, bnd.reAsk := .running (s.now + s.cfg.fourP) }.giveWait
      (byteAt f.payload 2) (byteAt f.payload 3)
  | _ => s

/-- R142: APPLY_BOUNDARY_REFUSE. -/
def applyBoundaryRefuse (s : State) : State :=
  s.takeFrame (Frame.boundary 3) fun f s =>
    (if byteAt f.payload 1 = 3 ∧ s.answersMe f = true then s.refused f else s).settle s

/-! ## SYNC_ASK and the snapshot -/

/-- R174: APPLY_SYNC_ASK: an ACTIVE station that is not serving takes an ask that names it. -/
def applySyncAsk (s : State) : State :=
  s.takeFrame (fun f => f.kind == .syncAsk) fun f s =>
    let s1 := if byteAt f.payload 0 = s.me ∧ s.mem.st = .active ∧ s.cons.serving = none then
        { s with cons.serving := some f.sender, cons.sent := [], cons.itemsSent := 0, cons.mark := .head }
      else s
    s1.settle s

/-- R178: a snapshot frame for this requester from the donor of the present try. -/
def State.fromDonor (s : State) (f : Frame) : Bool :=
  s.mem.st == .syncing && byteAt f.payload 0 == s.me && s.cons.donor == some f.sender

/-- R178: the snapshot timer restarts with 4P to run. -/
def State.restartSnap (s : State) : State := { s with cons.snapTimer := .running (s.now + s.cfg.fourP) }

/-- R178: APPLY_SNAP_HEAD. -/
def applySnapHead (s : State) : State :=
  s.takeFrame (fun f => f.kind == .snapHead) fun f s =>
    if s.fromDonor f && (s.cons.phase == .asked || s.cons.phase == .asking) then
      { s with cons.phase := .receiving, cons.itemsApplied := 0 }.restartSnap
    else s

/-- R58, R178: APPLY_SNAP_ITEM. -/
def applySnapItem (s : State) : State :=
  s.takeFrame (fun f => f.kind == .snapItem) fun f s =>
    if s.fromDonor f && s.cons.phase == .receiving then
      match Item.read f.payload with
      | some item =>
        if s.rep.holdsItem item then
          let s1 := s.rework fun w => { w with rep := w.rep.putItem item }
          { s1 with cons.itemsApplied := min 65535 (s1.cons.itemsApplied + 1) }.restartSnap.settle s
        else s
      | none => s
    else s

/-- R179: APPLY_SNAP_END. -/
def applySnapEnd (s : State) : State :=
  s.takeFrame (fun f => f.kind == .snapEnd) fun f s =>
    if s.fromDonor f && s.cons.phase == .receiving then
      if wordAt f.payload 1 = s.cons.itemsApplied ∧ wideAt f.payload 3 = s.rep.signature ∧ wordAt f.payload 1 ≠ 65535 then
        if s.ownItemSound then s.succeed else s.fault .roleConflict
      else s.failTry
    else s

end Sys2Proof.Machine
end

