-- ==== Sys2Proof/Machine/ApplyMembership.lean ====
section
/-! DEFINITION. The commands that take JOIN, LEAVE, LOST and DIGEST frames, and the frames of a LISTENING or FAULTED station
(03_membership_and_presence.md, R170). -/

namespace Sys2Proof.Machine

/-- R41: the parameter hash carried by a DIGEST or a JOIN. -/
def Frame.hash (f : Frame) : Option Word16 :=
  match f.kind with
  | .digest => some (BitVec.ofNat 16 (wordAt f.payload 5))
  | .join => some (BitVec.ofNat 16 (wordAt f.payload 6))
  | _ => none

/-- R41: a number added to the heard set, at most 31 members without duplicates. -/
def addHeard (n : Station) (l : List Station) : List Station :=
  if l.contains n || 31 ≤ l.length then l else insertAsc id n l

/-- R41: a pair added to the heard-hash set (log 13). -/
def addHash (x : Station × Word16) (l : List (Station × Word16)) : List (Station × Word16) :=
  if l.contains x || 31 ≤ l.length then l else l ++ [x]

/-- R41: a frame of another station recorded. -/
def Membership.record (m : Membership) (f : Frame) : Membership :=
  { m with
    heard := addHeard f.sender m.heard
    heardHash := match f.hash with
      | some h => addHash (f.sender, h) m.heardHash
      | none => m.heardHash }

/-- R41: LISTEN_RECORD. -/
def listenRecord (s : State) : State :=
  match s.mem.st, s.link.rxq with
  | .listening, f :: _ => if f.sender = s.me then s else { s.popFrame with mem := s.mem.record f }
  | _, _ => s

/-- R42, R43: the heard-hash set holds a hash different from the station's own. -/
def Membership.mismatched (m : Membership) : Bool := m.heardHash.any fun p => m.hash != some p.2

/-- R43: a founder's own JOIN applied to the empty replica; its ROSTER notice goes before the STATE notice (log 14). -/
def State.found (s : State) (p : List Byte) : State :=
  let s1 := s.join s.me p
  if s1.rep.present s.me then ({ s1 with mem.founding := false }.setStation .active .none).duedDigest
  else s1.fault .roleConflict

/-- R43: FOUNDING_JOIN. -/
def foundingJoin (s : State) : State :=
  match s.link.rxq with
  | [] => s
  | f :: _ =>
    if s.mem.st == .listening && s.mem.founding && f.sender == s.me && f.kind == .join then
      let s1 := s.popFrame
      if s1.mem.mismatched then s1.fault .paramMismatch
      else if s1.mem.heard.isEmpty then s1.found f.payload
      else { s1 with mem.founding := false }.startResync s1.mem.heard
    else s

/-- R38: FAULTED_DISCARD. -/
def faultedDiscard (s : State) : State := if s.mem.st == .faulted then s.popFrame else s

/-- R45, R46, R173: APPLY_JOIN. -/
def applyJoin (s : State) : State :=
  s.takeFrame (fun f => f.kind == .join) fun f s =>
    if s.mem.st == .syncing && !s.rep.present f.sender then s
    else (s.join f.sender f.payload).settle s

/-- R54, R180: APPLY_LEAVE. -/
def applyLeave (s : State) : State :=
  s.takeFrame (fun f => f.kind == .leave) fun f s =>
    if f.sender = s.me then s.leave .left
    else ((s.remove f.sender 4).settle s).donorGone f.sender

/-- R53, R180: APPLY_LOST; a LOST mark for the peer is cleared at the station's own LOST as at another's (R51, log 47). -/
def applyLost (s : State) : State :=
  s.takeFrame (fun f => f.kind == .lost) fun f s =>
    let n := byteAt f.payload 0
    if n = s.me then (s.give (noticeEvicted f.sender)).leave .evicted
    else
      let s1 := { s with mem := s.mem.forgetLost n }
      ((s1.remove n 3).settle s1).donorGone n

/-- R170: a DIGEST is compared: in ACTIVE or DRAINING, from another station, without the SYNCING flag. -/
def State.compares (s : State) (f : Frame) : Bool :=
  s.running && f.sender != s.me && !(f.payload.getD 4 0).getLsbD 1

/-- R170: a resynchronisation starts at this comparison. -/
def State.resyncs (s : State) (sig : Word32) : Bool :=
  sig != s.rep.signature && (s.link.loss || s.cons.mismatch != 0)

/-- R170: the comparison when no resynchronisation starts. -/
def State.compared (s : State) (sig : Word32) : State :=
  if sig = s.rep.signature then { s with cons.mismatch := 0, link := s.link.clearLoss }
  else { s with cons.mismatch := 1 }

/-- R49, R78, R170: APPLY_DIGEST: presence fields, comparison, then retirement. -/
def applyDigest (s : State) : State :=
  s.takeFrame (fun f => f.kind == .digest) fun f s =>
    if !s.rep.present f.sender then s
    else
      let s1 := s.rework fun w => w.presence f.sender f.payload
      let sig := wideAt f.payload 0
      if s1.compares f && s1.resyncs sig then s1.startResync s1.rosterCandidates
      else
        let s2 := if s1.compares f then s1.compared sig else s1
        (s2.rework fun w => w.retire f.sender).settle s

end Sys2Proof.Machine
end

