-- ==== Sys2Proof/Machine/Crane.lean ====
section
/-! DEFINITION. The Step Sequencer's commands (09_run_list_steps_and_crane_reports.md): the issue of a step (R153, R154), its
timer (R155), and the crane requests (R156–R164). -/

namespace Sys2Proof.Machine

/-! ## What follows a crane event -/

/-- R140, R150, R152: what follows every change of the crane record: a CRANE notice at a change of state, the deferral and
the head judged. DESIGN CHOICE: the head is judged after the estimates that the event computes anew (R114; log 72). -/
def State.craneChanged (s before : State) : State :=
  let s1 := if s.seqr.crane.state = before.seqr.crane.state then s else s.give (noticeCrane s.seqr.crane)
  s1.judgeDeferral.judgeHeads

/-! ## Yield steps (R140) -/

/-- R140: the rail position of a yield step for a partner ask of value `v`. -/
def yieldPos (e : CraneEnd) (v : Nat) : Nat := if e == .low then 8 * v - 1 else 8 * (v + 1)

/-- R140: the yield step asked for: a DEFERRED partner ask, the crane IDLE inside the conceded segments, the station ACTIVE
or DRAINING. -/
def State.yieldAct (s : State) : Option StepAct :=
  match s.bnd.partnerAsk with
  | .deferred v _ =>
    if s.running && s.seqr.crane.state == .idle && s.conceded (segment s.seqr.crane.pos) then
      some (.travel (yieldPos s.cfg.craneEnd v) s.seqr.crane.level)
    else none
  | _ => none

/-- R140: the step is a yield step to the rail position of the deferred ask; HELD, it is given again in place of a new one
(log 21). -/
def State.yieldsFor (s : State) (st : Step) : Bool :=
  match s.bnd.partnerAsk, st.act with
  | .deferred v _, .travel p _ => st.yield && p == yieldPos s.cfg.craneEnd v
  | _, _ => false

/-! ## The choice of a step (R153, R154) -/

/-- The step to be issued: a new step of a job or a yield step, or the HELD step given again. -/
inductive Choice where
  | yield (act : StepAct)
  | again (st : Step)
  | next (job : RunJob) (act : StepAct)
deriving DecidableEq, Repr

/-- R153: the next step of a job, from its record on the own board; after its first TRAVEL only once its entry is
ACTIVE. -/
def State.nextAct (s : State) (r : RunJob) (e : JobEntry) : Option StepAct :=
  let travel (p : Point) : StepAct := .travel p.1 p.2
  match r.phase with
  | .waiting => if s.blocked r then none else some (travel e.job.source)
  | .toSource => none
  | .picking =>
    if e.state != .active then none
    else if s.seqr.crane.point = e.job.source then
      some (.pick (stepSide e.job.srcForm) (stepDepth e.job.srcForm) true e.loadClass)
    else some (travel e.job.source)
  | .toDest => if e.state != .active then none else some (travel e.job.dest)
  | .dropping =>
    if e.state != .active then none
    else if s.seqr.crane.point = e.job.dest then
      some (.drop (stepSide e.job.dstForm) (stepDepth e.job.dstForm) true)
    else some (travel e.job.dest)
  | .finishing => none

/-- R154: a HELD current step. -/
def State.heldStep (s : State) : Option Step := s.seqr.crane.step.filter fun st => st.status == .held

/-- R154: the step to issue: a yield step asked for, then a HELD current step, then the head's next step. A dispatch station
drives no crane (00_scope.md, How the blocks work together): it issues none, a HELD step of a record kept from its time as a
crane station included (log 67). -/
def State.choice (s : State) : Option Choice :=
  if s.cfg.isDispatch then none
  else match s.yieldAct, s.heldStep with
  | some act, some st => if s.yieldsFor st then some (.again st) else some (.yield act)
  | some act, none => some (.yield act)
  | none, some st => some (.again st)
  | none, none =>
    match s.seqr.head with
    | some r => ((s.rep.entry r.id).bind (s.nextAct r)).map (.next r)
    | none => none

/-- The action of a choice. -/
def Choice.act : Choice → StepAct
  | .yield act => act
  | .again st => st.act
  | .next _ act => act

/-- R135, R154: the choice may be issued; a yield step is exempt from the deferral condition. -/
def State.allows (s : State) (c : Choice) : Bool :=
  match c with
  | .yield (.travel p _) => s.sideSafe p
  | .again st => match st.act with
    | .travel p _ => if s.yieldsFor st then s.sideSafe p else s.stepSafe st.act
    | _ => s.stepSafe st.act
  | _ => s.stepSafe c.act

/-- R137: the head job whose step the choice is. -/
def State.headOf (s : State) (c : Choice) : Option RunJob :=
  match c with
  | .yield _ => none
  | .next r _ => some r
  | .again st => s.seqr.head.filter fun r => st.job == some r.id

/-! ## Issue (R154) -/

/-- R154: the fields of a STEP notice; the expected class of a DROP is a free value (log 6). -/
def stepNotice (st : Step) (fresh : Nat) : List Byte :=
  let fields := match st.act with
    | .travel p l => [b8 p, b8 l]
    | .pick side depth label expected => [b8 side, b8 depth, b8 (bit label), b8 expected]
    | .drop side depth label => [b8 side, b8 depth, b8 (bit label), Config.freeByte fresh]
  noticeRecord 4 ([b8 st.id, b8 st.act.code] ++ be16 (orZero st.job) ++ fields)

/-- R116: the profile entry that decides a TRAVEL's estimate; none for another step. -/
def State.decidingEntry (s : State) : StepAct → Option Nat
  | .travel p l => some (s.profile.deciding s.loadClass s.seqr.crane.point (p, l))
  | _ => none

/-- R154, R155: a step as it is issued now. -/
def State.issuedStep (s : State) (act : StepAct) (job : Option JobId) (first yield : Bool) : Step where
  id := s.seqr.crane.nextId
  act := act
  job := job
  estimate := s.stepEstimate act
  issueTime := s.now
  first := first
  status := .outstanding
  expiry := s.now + 20 * s.stepEstimate act + 1000 * s.cfg.margin
  loadClass := s.loadClass
  entry := s.decidingEntry act
  yield := yield

/-- R154: the current step HELD at the issue of a yield step is set aside with its retry count; the one place holds the
step set aside first (log 21). -/
def Crane.putAside (c : Crane) : Crane :=
  match c.setAside, c.step with
  | none, some st => { c with setAside := some (st, c.retry) }
  | _, _ => c

/-- R154: a step given to the crane: the next id, the crane STEPPING, a STEP notice and a CRANE notice, the estimates
anew. -/
def State.giveStep (s : State) (st : Step) : State :=
  let s1 := s.withCrane fun c => { c with
    step := some st, state := .stepping, nextId := (c.nextId + 1) % 256
    retry := if st.first then 0 else c.retry }
  let s2 := { s1 with fresh := s.fresh + 1 }.give (stepNotice st s.fresh)
  (s2.give (noticeCrane s2.seqr.crane)).reestimate

/-- R154: the choice is issued. -/
def State.issue (s : State) (c : Choice) : State :=
  match c with
  | .yield act => (s.withCrane Crane.putAside).giveStep (s.issuedStep act none true true)
  | .again st => s.giveStep (s.issuedStep st.act st.job false st.yield)
  | .next r act =>
    let s1 := if r.phase == .waiting then
        (s.advance r.id fun r => { r with phase := .toSource }).milestone r.id msStarted 0
      else s
    s1.giveStep (s.issuedStep act (some r.id) true false)

/-- R137, R154: STEP_ISSUE: in ACTIVE or DRAINING, the crane IDLE: the choice is issued where R135 lets it and the notice
queue has a place; held back by R135, an ask is judged. -/
def stepIssue (s : State) : State :=
  let s := s.judgeHeads
  if s.running && s.seqr.crane.state == .idle then
    match s.choice with
    | none => s
    | some c =>
      if s.allows c then
        if s.port.notices.length < Config.noticeCapacity then (s.issue c).judgeDeferral else s
      else match s.headOf c with
        | some r => s.judgeAsk r c.act
        | none => s
  else s

/-- R137, R142: RE_ASK_TIMER_EXPIRY. -/
def reAskTimerExpiry (s : State) : State :=
  match s.bnd.reAsk with
  | .running t =>
    let s1 := { s.reach t with bnd.reAsk := .stopped }
    if s1.running && s1.seqr.crane.state == .idle then
      match s1.choice with
      | none => s1
      | some c =>
        if s1.allows c then s1
        else match s1.headOf c with
          | some r => s1.judgeAsk r c.act
          | none => s1
    else s1
  | _ => s

/-- R155, R190: an estimate as a notice carries it; the free value of log 6 above 65535. -/
def shownEstimate (n : Nat) : Nat := if n ≤ 65535 then n else (Config.wideEstimate n).toNat

/-- R155: STEP_TIMER_EXPIRY. -/
def stepTimerExpiry (s : State) : State :=
  match s.seqr.crane.step with
  | some st =>
    if st.status == .outstanding then
      let s1 := (s.reach st.expiry).withCrane fun c => (c.withStatus .overdue).become .stalled .overdue
      (s1.give (noticeOverdue st.id (orZero st.job) (shownEstimate st.estimate))).craneChanged s
    else s
  | none => s

/-! ## Crane requests (R156) -/

/-- R156: a crane request taken in every station state; refused on a dispatch station. The order of its other answers is
log 57's: ranges first, then STRAY or WRONG_STATE. -/
def State.craneRequest (s : State) (kind : Nat) (f : List Byte → State → State) : State :=
  s.takeRequest kind fun r s => if s.cfg.isDispatch then s.refuse kind wrongRole 0 0 else f r s

/-- R157: HOMED; a field out of its range is judged before the crane state (log 57), and the estimates are computed before the
head is judged (log 72). -/
def homed (s : State) : State :=
  s.craneRequest 10 fun r s =>
    if 127 < byteAt r 2 then s.refuse 10 badField 0 0
    else if 31 < byteAt r 3 then s.refuse 10 badField 1 0
    else if s.seqr.crane.state != .unknown then s.refuse 10 wrongState 0 0
    else ((s.withCrane fun c => { c.become .idle .none with pos := byteAt r 2, level := byteAt r 3 }).reestimate).craneChanged s

/-- R156: a stray report; with no step current its notice carries step id 0 (log 64). -/
def State.stray (s : State) (kind named : Nat) : State :=
  match s.seqr.crane.step with
  | some st => s.give (noticeStray kind named st.id st.status.code)
  | none => s.give (noticeStray kind named 0 0)

/-- R159: the classes of a fault once judged against the step it ends. -/
inductive FaultEffect where
  /-- R160: a retryable fault, with its stall cause. -/
  | retry (cause : StallCause)
  /-- SOURCE_EMPTY, SOURCE_BLOCKED, OVERLOAD of a PICK: the FAILED reason. -/
  | jobFails (reason : Nat)
  /-- TARGET_OCCUPIED of the DROP of a loaded job. -/
  | orphanLoad
  | positionLost
  | craneFatal
deriving DecidableEq, Repr

/-- R159: the effect of a fault kind on a step. -/
def State.faultEffect (s : State) (st : Step) (kind : Nat) : FaultEffect :=
  let isPick := match st.act with
    | .pick .. => true
    | _ => false
  let loadedDrop := match st.act with
    | .drop .. => (s.seqr.stepJob st).any RunJob.loaded
    | _ => false
  match kind with
  | 1 => .retry .labelMismatch
  | 3 => if isPick then .jobFails 7 else .retry .pathBlocked
  | 4 => if isPick then .jobFails 8 else .retry .pathBlocked
  | 5 => if isPick then .jobFails 9 else .retry .pathBlocked
  | 6 => if loadedDrop then .orphanLoad else .retry .pathBlocked
  | 7 => .positionLost
  | 8 | 9 => .craneFatal
  | _ => .retry .pathBlocked

/-- A milestone set for the job of a step, when that job stands in the run list. -/
def State.stepMilestone (s : State) (st : Step) (m detail : Nat) : State :=
  match s.seqr.stepJob st with
  | some r => s.milestone r.id m detail
  | none => s

/-- R159, R160: a fault of the outstanding step `st`. -/
def State.stepFaulted (s : State) (st : Step) (kind : Nat) : State :=
  match s.faultEffect st kind with
  | .retry cause =>
    if s.seqr.crane.retry < s.cfg.retryLimit then
      s.withCrane fun c => { (c.withStatus .held).become .idle .none with retry := c.retry + 1 }
    else s.withCrane fun c => (c.withStatus .ended).become .stalled cause
  | .jobFails reason => (s.stepMilestone st msFailed reason).withCrane fun c => c.clearStep.become .idle .none
  | .orphanLoad => (s.stepMilestone st msStranded 0).withCrane fun c => c.clearStep.become .stalled .orphanLoad
  | .positionLost => s.withCrane fun c => (c.withStatus .held).become .unknown .none
  | .craneFatal => s.surrender.withCrane fun c => c.become .outOfService .none

/-- R158: the phase after a TRAVEL that reached its target. -/
def Phase.arrived : Phase → Phase
  | .toSource => .picking
  | .toDest => .dropping
  | p => p

/-- R158: a completed PICK within rating: the job loaded, its class measured, the crane's load its id. -/
def State.pickedUp (s : State) (st : Step) (measured : Nat) : State :=
  match s.seqr.stepJob st with
  | none => s
  | some r =>
    ((s.advance r.id fun r => { r with loaded := true, loadClass := measured, phase := .toDest }).milestone r.id msPicked
      measured).withCrane fun c => { c with load := some r.id }

/-- R158: a completed DROP: the forks empty, the job DONE. -/
def State.putDown (s : State) (st : Step) : State :=
  match s.seqr.stepJob st with
  | none => s
  | some r => (s.milestone r.id msDone 0).withCrane fun c => { c with load := none }

/-- R158: the effect of a STEP_DONE on the outstanding step, the position already taken. -/
def State.stepEnded (s : State) (st : Step) (measured : Nat) : State :=
  let done := s.withCrane fun c => c.clearStep.become .idle .none
  match st.act with
  | .travel p l =>
    if s.seqr.crane.point = (p, l) then
      let s1 := if s.learns st then { done with profile := s.learned st } else done
      match s.seqr.stepJob st with
      | some r => s1.advance r.id fun r => { r with phase := r.phase.arrived }
      | none => s1
    else s.stepFaulted st 2
  | .pick .. => if measured ≤ s.cfg.rated then done.pickedUp st measured else s.stepFaulted st 5
  | .drop .. => done.putDown st

/-- R156, R158: a STEP_DONE's measured class is refused: that of a PICK outside 1–3. -/
def Step.classBad (st : Step) (measured : Nat) : Bool :=
  match st.act with
  | .pick .. => measured < 1 || 3 < measured
  | _ => false

/-- R158: STEP_DONE; a position out of its range is judged before a stray id, a PICK's class after it (log 57), and the
estimates are computed before the head is judged (log 72). -/
def stepDone (s : State) : State :=
  s.craneRequest 11 fun r s =>
    if 127 < byteAt r 3 then s.refuse 11 badField 1 0
    else if 31 < byteAt r 4 then s.refuse 11 badField 2 0
    else match s.seqr.crane.inFlight with
      | none => s.stray 11 (byteAt r 2)
      | some st =>
        if st.id ≠ byteAt r 2 then s.stray 11 (byteAt r 2)
        else if st.classBad (byteAt r 5) then s.refuse 11 badField 3 0
        else
          let s1 := s.withCrane fun c => { c with pos := byteAt r 3, level := byteAt r 4 }
          ((s1.stepEnded st (byteAt r 5)).reestimate).craneChanged s

/-- R159: STEP_FAULT; the kind's range is judged before a stray id (log 57), and the estimates are computed before the head is
judged (log 72). -/
def stepFault (s : State) : State :=
  s.craneRequest 12 fun r s =>
    let kind := byteAt r 3
    if kind < 1 || 9 < kind then s.refuse 12 badField 1 0
    else match s.seqr.crane.inFlight with
      | none => s.stray 12 (byteAt r 2)
      | some st =>
        if st.id ≠ byteAt r 2 then s.stray 12 (byteAt r 2)
        else ((s.stepFaulted st kind).reestimate).craneChanged s

/-- R161: the stall has a current step. -/
def StallCause.hasStep : StallCause → Bool
  | .overdue | .labelMismatch | .pathBlocked => true
  | _ => false

/-- R161: a step given again carries label check on or off; a TRAVEL carries none. -/
def StepAct.labelled (on : Bool) : StepAct → StepAct
  | .travel p l => .travel p l
  | .pick side depth _ expected => .pick side depth on expected
  | .drop side depth _ => .drop side depth on

/-- R161: a skip of the label check applies to a PICK or DROP stalled on LABEL_MISMATCH. -/
def Crane.maySkip (c : Crane) : Bool :=
  c.stall == .labelMismatch && c.step.any fun st => match st.act with
    | .travel _ _ => false
    | _ => true

/-- R161: RETRY; the range of skip is judged first, then the stall, then whether skip applies (log 57). -/
def retry (s : State) : State :=
  s.craneRequest 13 fun r s =>
    let skip := byteAt r 2
    if 1 < skip then s.refuse 13 badField 0 0
    else if s.seqr.crane.state != .stalled || !s.seqr.crane.stall.hasStep then s.refuse 13 wrongState 0 0
    else if skip == 1 && !s.seqr.crane.maySkip then s.refuse 13 badField 0 0
    else (s.withCrane fun c => { c.become .idle .none with
        retry := 0
        step := c.step.map fun st => { st with status := .held, act := st.act.labelled (skip == 0) } }).craneChanged s

/-- R162: an ABANDON of a stall with a current step, which becomes absent with retry count 0; a step set aside is then current
again with its own retry count (R154, log 56). -/
def State.abandonStep (s : State) (st : Step) (option : Nat) : State :=
  let idle := s.withCrane fun c => { c with retry := 0 }.clearStep.become .idle .none
  match s.seqr.stepJob st with
  | none => idle
  | some r =>
    if r.loaded then
      (s.milestone r.id msStranded 0).withCrane fun c => { c with retry := 0 }.clearStep.become .stalled .orphanLoad
    else if option = 1 then idle.milestone r.id msReleased 0
    else idle.milestone r.id msFailed 6

/-- R162: an ABANDON of an ORPHAN_LOAD or CONFLICT stall: the forks were emptied by hand; a step set aside becomes current
again (R154, log 56). The job of a CONFLICT stall leaves the list, the estimates computed with the crane as it is left (log
72). -/
def State.abandonLoad (s : State) : State :=
  let s1 := s.withCrane fun c => { c.become .idle .none with step := none, retry := 0, load := none }.clearStep
  if s.seqr.crane.stall == .conflict then s1.leaveRun fun id => s.seqr.crane.load == some id else s1

/-- R162: ABANDON; the option's range is judged before the crane state (log 57). -/
def abandon (s : State) : State :=
  s.craneRequest 14 fun r s =>
    if byteAt r 2 < 1 || 2 < byteAt r 2 then s.refuse 14 badField 0 0
    else if s.seqr.crane.state != .stalled then s.refuse 14 wrongState 0 0
    else
      let s1 := match s.seqr.crane.stall.hasStep, s.seqr.crane.step with
        | true, some st => s.abandonStep st (byteAt r 2)
        | _, _ => s.abandonLoad
      let s2 := s1.craneChanged s
      if s2.seqr.runList.length < s.seqr.runList.length then s2.judgeChain else s2

/-! ## MODE (R164) -/

/-- R164: a MODE request of the given value; one outside 1–4 is refused by whichever row is commanded (log 16). -/
def State.mode (s : State) (value : Nat) (f : State → State) : State :=
  match s.request 15 with
  | some r => if byteAt r 2 = value ∨ byteAt r 2 < 1 ∨ 4 < byteAt r 2 then
      s.craneRequest 15 fun r s => if byteAt r 2 = value then f s else s.refuse 15 badField 0 0
    else s
  | none => s

/-- R163, R164: the crane goes to a state in which no step is issued, the run list surrendered; in that state already,
nothing changes. -/
def State.withdrawCrane (s : State) (target : CraneState) : State :=
  if s.seqr.crane.state = target then s
  else (s.surrender.withCrane fun c => c.become target .none).craneChanged s

/-- R164: the crane returns to UNKNOWN, its load none. -/
def State.returnCrane (s : State) (fromState : CraneState) : State :=
  if s.seqr.crane.state = fromState then
    (s.withCrane fun c => { c.become .unknown .none with load := none }).craneChanged s
  else s.refuse 15 wrongState 0 0

/-- R164: MODE MANUAL. -/
def modeManual (s : State) : State := s.mode 1 fun s => s.withdrawCrane .manual

/-- R164: MODE AUTO. -/
def modeAuto (s : State) : State := s.mode 2 fun s => s.returnCrane .manual

/-- R164: MODE OUT_OF_SERVICE. -/
def modeOutOfService (s : State) : State := s.mode 3 fun s => s.withdrawCrane .outOfService

/-- R164: MODE IN_SERVICE. -/
def modeInService (s : State) : State := s.mode 4 fun s => s.returnCrane .outOfService

end Sys2Proof.Machine
end

