-- ==== Sys2Proof/Machine/LinkEvents.lean ====
section
/-! DEFINITION. The Link Controller's commands (02_the_floor_link.md): a frame's start (R16, R25), collision (R19, R20),
completion (R29), reception (R30–R33), and a mark turned into a frame (R27). -/

namespace Sys2Proof.Machine

/-! ## FRAME_START -/

/-- R16: the station's position in a contention interval. -/
def State.position (s : State) : Nat := (s.me + 63 - s.link.lastSender) % 32

/-- R25, R175: a fill that starts only with the receive queue empty: a DIGEST or a snapshot frame, SNAP_HEAD among them (log
68). -/
def Fill.needsEmpty : Fill → Bool
  | .digest | .snapHead _ | .snapNext _ | .snapEnded _ => true
  | _ => false

/-- R49: the DIGEST payload at a start (flags, log 8). -/
def State.digestPayload (s : State) : List Byte :=
  let draining := s.mem.st == .draining || (s.mem.st == .syncing && s.mem.leaveMark)
  let head := be32 s.rep.signature ++ [b8 (presenceFlags draining (s.mem.st == .syncing))]
    ++ be16 (s.mem.hash.elim 0 BitVec.toNat)
  if s.cfg.isDispatch then head ++ [0] ++ be16 0 ++ [0, 0, 0]
  else head ++ [b8 s.seqr.runList.length] ++ be16 s.backlog
    ++ [b8 s.seqr.crane.pos, b8 s.seqr.crane.level, b8 s.seqr.crane.state.code]

/-- R175: the items of the replica in table order. -/
def Replica.items (r : Replica) : List Item :=
  r.roster.map .station ++ r.docks.map .dock ++ r.aisles.map .aisle ++ r.jobs.map .job

/-- R175, R177: the SNAP_END payload. -/
def snapEndPayload (requester sent : Nat) (sig : Word32) : List Byte := b8 requester :: (be16 sent ++ be32 sig)

/-- R25, R49, R175, R177: the kind and payload of a frame as it is filled at its start. -/
def State.fillFrame (s : State) (f : TxFrame) : TxFrame :=
  match f.fill with
  | .fixed | .ask _ => f
  | .digest => { f with payload := s.digestPayload }
  | .snapHead r => { f with kind := .snapHead, payload := [b8 r] }
  | .snapNext r =>
    match s.rep.items.find? fun i => !s.cons.sent.contains i.key with
    | some i => { f with kind := .snapItem, payload := b8 r :: i.contents }
    | none => { f with kind := .snapEnd, payload := snapEndPayload r s.cons.itemsSent s.rep.signature }
  | .snapEnded r => { f with kind := .snapEnd, payload := snapEndPayload r 65535 s.rep.signature }

/-- R85: the own bid of a job becomes SENT when its BID first starts. -/
def AllotRecord.bidStarted (id : JobId) (attempt : Nat) (a : AllotRecord) : AllotRecord :=
  if a.job == id && a.attempt == attempt && a.ownBid == .queued then { a with ownBid := .sent } else a

/-- R25: the head frame starts: filled, with the sequence of its first start. -/
def State.start (s : State) (f : TxFrame) (rest : List TxFrame) : State :=
  let g := s.fillFrame f
  let s1 := { s with link.line := .own }
  let s2 := match g.sequence with
    | some _ => { s1 with link.txq := g :: rest }
    | none => { s1 with link.txq := { g with sequence := some s.link.ownSeq } :: rest
                        link.ownSeq := (s.link.ownSeq + 1) % 256 }
  if g.kind == .bid then
    { s2 with allot := s2.allot.map (AllotRecord.bidStarted (wordAt g.payload 0) (byteAt g.payload 2)) }
  else s2

/-- R29, R52: the station's own LEAVE has completed and waits in the receive queue for its application; a frame under the
station's own number enters that queue by loopback alone (R31). -/
def State.leaveWaits (s : State) : Bool := s.link.rxq.any fun g => g.sender == s.me && g.kind == .leave

/-- R16, R25: the start conditions at the beginning of a position; and R52: a frame queued behind the own LEAVE never reaches
the line, so none starts between the LEAVE's completion and its application (log 58). -/
def State.mayStart (s : State) (position : Nat) (lineIdle : Bool) (f : TxFrame) : Bool :=
  lineIdle && s.link.line == .free && position == s.position && s.mem.st != .offline && s.mem.st != .faulted
    && decide (s.link.rxq.length < Config.rxCapacity) && (!f.fill.needsEmpty || s.link.rxq.isEmpty)
    && !s.leaveWaits

/-- R16, R25: FRAME_START. -/
def frameStart (position : Nat) (lineIdle : Bool) (s : State) : State :=
  match s.link.txq with
  | f :: rest => if s.mayStart position lineIdle f then s.start f rest else s
  | [] => s

/-! ## COLLISION -/

/-- R19, R20, R35: COLLISION; the count is 0 once a FAULTED station's frame is given up (log 39). -/
def collision (s : State) : State :=
  match s.link.line with
  | .free => s
  | .departed _ => { s with link.line := .free }
  | .own =>
    let s1 := { s with link.line := .free }
    if s.mem.st == .faulted then { s1 with link.txq := [], link.collisions := 0 }
    else
      let s2 := { s1 with link.collisions := s.link.collisions + 1 }
      if 3 ≤ s2.link.collisions then s2.fault .duplicate else s2

/-! ## FRAME_COMPLETE -/

/-- R175: the key of the item a SNAP_ITEM payload carries. -/
def carriedKey (p : List Byte) : ItemKey :=
  match byteAt p 1 with
  | 1 => .station (byteAt p 2)
  | 2 => .dock (byteAt p 2)
  | 3 => .aisle (byteAt p 2)
  | _ => .job (wordAt p 2)

/-- R175: the donor's part at the completion of a frame of the present serve. -/
def Consistency.serveDone (c : Consistency) (f : TxFrame) : Consistency :=
  match f.fill, f.kind with
  | .snapHead _, _ => { c with mark := .next }
  | .snapNext _, .snapItem =>
    { c with sent := carriedKey f.payload :: c.sent, itemsSent := min 65534 (c.itemsSent + 1), mark := .next }
  | .snapNext _, _ => { c with serving := none, sent := [], mark := .none }
  | _, _ => c

/-- R172: the SYNC_ASK of the present try has completed. -/
def State.askDone (s : State) (f : TxFrame) : State :=
  match f.fill with
  | .ask n =>
    if s.mem.st = .syncing ∧ s.cons.phase = .asking ∧ n = s.cons.tryNo then
      { s with cons.phase := .asked, cons.snapTimer := .running (s.now + s.cfg.fourP) }
    else s
  | _ => s

/-- R48: the presence timer restarts at the completion of an own frame; in LISTENING it runs from the own JOIN's. -/
def State.restartPresence (s : State) : State :=
  if s.onLink || s.mem.st == .listening then { s with mem.presence := .running (s.now + s.cfg.pTime) } else s

/-- R42, R172: a joiner's first ask follows its JOIN's completion. -/
def State.joinDone (s : State) (f : TxFrame) : State :=
  if f.kind == .join && s.mem.st == .syncing && s.cons.phase == .none then s.offerAsk else s

/-- R29, R95: what the producers do at the completion of an own frame. -/
def State.completed (s : State) (f : TxFrame) : State :=
  (((({ s with cons := s.cons.serveDone f }).restartPresence).askDone f).joinDone f).judgeChain

/-- R29: FRAME_COMPLETE. -/
def frameComplete (s : State) : State :=
  match s.link.line, s.link.txq with
  | .own, f :: rest =>
    let copy : Frame := { sender := s.me, kind := f.kind, sequence := f.sequence.getD 0, payload := f.payload }
    State.completed { s with
      link.line := .free, link.txq := rest, link.collisions := 0, link.lastSender := s.me
      link.intervalFrom := s.now, link.rxq := s.link.rxq ++ [copy] } f
  | .departed n, _ => { s with link.line := .free, link.lastSender := n, link.intervalFrom := s.now }
  | _, _ => s

/-! ## FRAME_RECEIVE -/

/-- R18, R17: the end of another station's frame on the line: its sender byte becomes the last sender, that of a damaged frame
only when it lies in 1–31 (log 12 for a byte above 31). -/
def Link.frameEnd (l : Link) (damaged : Bool) (sender now : Nat) : Link :=
  { l with lastSender := if (damaged = true → 1 ≤ sender) ∧ sender ≤ 31 then sender else l.lastSender
           intervalFrom := now }

/-- R33: the sequence recorded; a gap sets the loss flag. -/
def Link.heard (l : Link) (f : Frame) : Link :=
  let l1 := { l with seqTable := l.seqTable.setIfInBounds f.sender (some f.sequence) }
  match l.seqTable[f.sender]?.join with
  | none => l1
  | some n => if f.sequence = (n + 1) % 256 then l1 else l1.setLoss

/-- R51: a frame from a peer arrives while a LOST for it is marked or queued. -/
def State.peerHeard (s : State) (n : Station) : State :=
  State.withdraw { s with mem.lostMarks := s.mem.lostMarks.filter fun k => k != n } (TxFrame.lostOf n)

/-- R32, R33, R51: a frame that passes R30 and R31 enters the receive queue, or is discarded with the loss flag set. -/
def State.receive (s : State) (f : Frame) : State :=
  if s.link.rxq.length < Config.rxCapacity then
    State.peerHeard { s with link := { (s.link.heard f) with rxq := s.link.rxq ++ [f] } } f.sender
  else { s with link := s.link.setLoss }

/-- R18, R30, R31, R32: FRAME_RECEIVE; a frame of the station's own on the line leaves no room for another (log 30). -/
def frameReceive (bytes : List Byte) (s : State) : State :=
  if s.link.line = .free then
    let s1 := { s with link := s.link.frameEnd (damaged bytes) (byteAt bytes 0) s.now }
    if s.mem.st = .offline then s1
    else if damaged bytes then { s1 with link := s1.link.setLoss }
    else match readFrame bytes with
      | none => { s1 with link := s1.link.setLoss }
      | some f => if f.sender = s.me then s1.fault .duplicate else s1.receive f
  else s

/-! ## MARK_TO_FRAME -/

/-- R44: the JOIN payload: the crane's position from the crane record, the rest from the configuration block. -/
def State.joinPayload (s : State) : List Byte :=
  let hash := be16 (s.mem.hash.elim 0 BitVec.toNat)
  if s.cfg.isDispatch then
    [2, 0, 0, 0, 0, 0] ++ hash ++ [b8 s.cfg.docks.length]
      ++ s.cfg.docks.flatMap fun d => [b8 d.1, b8 d.2.1, b8 d.2.2]
  else
    [1, b8 s.cfg.aisle, b8 s.cfg.craneEnd.code, b8 s.seqr.crane.pos, b8 s.seqr.crane.level,
      if s.cfg.craneEnd.tandem then b8 s.cfg.home else 0] ++ hash ++ [0]

/-- The frame of a mark: kind and payload (R44, R51, R67, R75, R100, R125, R138, R146). -/
def State.markFrame (s : State) : Mark → FrameKind × List Byte × Fill
  | .join => (.join, s.joinPayload, .fixed)
  | .leave => (.leave, [], .fixed)
  | .lost n => (.lost, [b8 n], .fixed)
  | .milestone id k => (.progress, be16 id ++ [b8 k.milestone, b8 k.detail], .fixed)
  | .ask v => (.boundary, [b8 s.cfg.aisle, 1, b8 v, 0], .fixed)
  | .answer act v reason => (.boundary, [b8 s.cfg.aisle, b8 act, b8 v, b8 reason], .fixed)
  | .resolveAisle a b => (.resolve, [2, b8 a, b8 b], .fixed)
  | .dock n count => (.dock, [b8 n, b8 count], .fixed)
  | .board (.cancel id) => (.cancel, be16 id, .fixed)
  | .board (.resolve id outcome) => (.resolve, 1 :: (be16 id ++ [b8 outcome]), .fixed)
  | .reOffer e n => (.offer, e.job.offer n, .fixed)
  | .exhaust id => (.progress, be16 id ++ [b8 msFailed, 4], .fixed)
  | .offer j => (.offer, j.offer 1, .fixed)
  | .snapHead r => (.snapHead, [b8 r], .snapHead r)
  | .snapNext r => (.snapItem, [], .snapNext r)

/-- R100: the record's mark with its frame queued. -/
def AllotRecord.markQueued (id : JobId) (a : AllotRecord) : AllotRecord :=
  if a.job == id then
    { a with mark := match a.mark with
      | .none => .none
      | .reOffer n stamp _ => .reOffer n stamp true
      | .exhaust stamp _ => .exhaust stamp true }
  else a

/-- What the producer's mark becomes when its frame is queued. -/
def State.clearMark (s : State) : Mark → State
  | .join => { s with mem.joinMark := false }
  | .leave => { s with mem.leaveFrame := .queued }
  | .lost n => { s with mem.lostMarks := s.mem.lostMarks.filter fun k => k != n }
  | .milestone id k =>
    { s with seqr := s.seqr.update id fun r => { r with marks := r.marks.filter fun x => x.milestone != k.milestone } }
  | .ask _ => { s with bnd.askMark := none }
  | .answer .. => { s with bnd.answer := .none }
  | .resolveAisle _ _ => { s with bnd.resolveMarks := s.bnd.resolveMarks.tail }
  | .dock _ _ => { s with dockMarks := s.dockMarks.tail }
  | .board _ => { s with board.marks := s.board.marks.tail }
  | .reOffer e _ => { s with allot := s.allot.map (AllotRecord.markQueued e.id) }
  | .exhaust id => { s with allot := s.allot.map (AllotRecord.markQueued id) }
  | .offer j =>
    { s with board.offers := s.board.offers.map fun o => if o.job.id == j.id then { o with queued := true } else o }
  | .snapHead _ | .snapNext _ => { s with cons.mark := .none }

/-- R27: MARK_TO_FRAME. -/
def markToFrame (s : State) : State :=
  if s.link.txq.length < Config.txCapacity then
    match s.nextMark with
    | none => s
    | some m =>
      let f := s.markFrame m
      (s.clearMark m).enqueue f.1 f.2.1 f.2.2
  else s

end Sys2Proof.Machine
end

