-- ==== Sys2Proof/Machine/Timers.lean ====
section
/-! DEFINITION. The expiries of the Membership Unit's, the Allotment Engine's and the Consistency Monitor's timers (R42, R48,
R51, R91, R98, R172, R180). An expiry is taken while its timer runs; the clock then stands at least at the expiry
(log 1). -/

namespace Sys2Proof.Machine

/-- R42: the judgement of the heard sets at the listen timer's expiry. -/
def State.judgeHeard (s : State) : State :=
  if s.mem.heardHash.any fun p => s.mem.hash != some p.2 then s.fault .paramMismatch
  else if s.mem.heard.isEmpty then { s with mem.joinMark := true, mem.founding := true }
  else { s with mem.joinMark := true }.startResync s.mem.heard

/-- R42: LISTEN_TIMER_EXPIRY. -/
def listenTimerExpiry (s : State) : State :=
  match s.mem.st, s.mem.listenTimer with
  | .listening, .running t => { s.reach t with mem.listenTimer := .expired }.judgeHeard
  | _, _ => s

/-- R48: PRESENCE_TIMER_EXPIRY: in LISTENING no DIGEST is offered and the timer stays expired. -/
def presenceTimerExpiry (s : State) : State :=
  match s.mem.presence with
  | .running t => { s.reach t with mem.presence := .expired }.duedDigest
  | _ => s

/-- R51: a LOST mark for a peer still present, at most one for each. -/
def State.markLost (s : State) (n : Station) : State :=
  if s.rep.present n && !s.mem.lostMarks.contains n then { s with mem.lostMarks := insertAsc id n s.mem.lostMarks } else s

/-- R51: SILENCE_TIMER_EXPIRY. -/
def silenceTimerExpiry (peer : Station) (s : State) : State :=
  match findKey Prod.fst peer s.mem.silence with
  | some (_, .running t) =>
    if s.running then
      State.markLost { s.reach t with mem.silence := s.mem.silence.map fun p =>
        if p.1 == peer then (peer, .expired) else p } peer
    else s
  | _ => s

/-- R91: the own bid judged at the close of its window. -/
def State.judgeOwnBid (s : State) (a : AllotRecord) : State :=
  match a.ownBid with
  | .none => s
  | .queued => (s.putAllot { a with ownBid := .none }).withdraw (TxFrame.bidFor a.job)
  | .sent =>
    match (s.rep.entry a.job).bind fun e => e.bids.head? with
    | some b =>
      if b.bidder == s.me && s.claims then
        s.offerAward a.job a.attempt b.cost .bid
      else s
    | none => s

/-- R97: the custodian's timer at the close of a window. -/
def State.startCustody (s : State) (a : AllotRecord) : AllotRecord :=
  match s.rep.entry a.job with
  | some e => if s.isCustodian a.job then { a with timer := s.custodialTimer e } else a
  | none => a

/-- R91, R97: BID_WINDOW_CLOSE. -/
def bidWindowClose (job : JobId) (s : State) : State :=
  match s.allotment job with
  | some a =>
    match a.window with
    | .running t =>
      let s1 := s.reach t
      let a1 := s1.startCustody { a with window := .closed }
      (s1.putAllot a1).judgeOwnBid a1
    | .closed => s
  | none => s

/-- R98: the custodial mark set at a custodial timer's expiry. -/
def State.custodyExpired (s : State) (a : AllotRecord) (t : Nat) : State :=
  ((s.reach t).putAllot { a with timer := .none, mark := custodialMark a.attempt s.stamp }).stamped

/-- R98: CUSTODIAL_TIMER_EXPIRY. -/
def custodialTimerExpiry (job : JobId) (s : State) : State :=
  match s.allotment job with
  | some a =>
    match a.timer with
    | .awardTimeout t | .reofferWait t => s.custodyExpired a t
    | .none => s
  | none => s

/-- R172, R180: SNAPSHOT_TIMER_EXPIRY. -/
def snapshotTimerExpiry (s : State) : State :=
  match s.cons.snapTimer with
  | .running t =>
    let s1 := { s.reach t with cons.snapTimer := .expired }
    match s.cons.phase with
    | .asking => s1.offerAsk
    | .asked | .receiving => s1.failTry
    | .none => s1
  | _ => s

end Sys2Proof.Machine
end

