-- ==== Sys2Proof/Machine/Addresses.lean ====
section
/-! DEFINITION. The window's addresses with a behaviour of their own (R185). -/

namespace Sys2Proof

/-- R185: the configuration block's addresses. -/
def inConfigBlock (addr : Nat) : Bool := 0x0100 ≤ addr && addr ≤ 0x0141

/-- R185: the profile region's addresses. -/
def inProfileRegion (addr : Nat) : Bool := 0x1000 ≤ addr && addr ≤ 0x11FF

/-- R185: the five clear locations. -/
def isClearLocation (addr : Nat) : Bool := 0x30 ≤ addr && addr ≤ 0x34

/-- R185: the addresses at which a written byte has a behaviour of its own. -/
def hasWriteBehaviour (addr : Nat) : Bool :=
  addr == 0x10 || addr == 0x0200 || inConfigBlock addr || inProfileRegion addr

end Sys2Proof
end

