-- ==== Sys2Proof/Machine/Requests.lean ====
section
/-! DEFINITION. The requests of the Membership Unit, Job Board, Dock Table, Boundary Unit and Local Port (R10–R13, R40, R52,
R55, R71, R75, R125, R145, R189, R194). -/

namespace Sys2Proof.Machine

/-! ## JOIN (R40) -/

/-- A number in a range, both ends included. -/
def inRange (lo hi n : Nat) : Bool := lo ≤ n && n ≤ hi

/-- R40, R187: the fields that both roles read lie in their ranges; DEDUCED: the profile parameters of the four classes, from
which a station of either role computes its table (R106), are among them (log 65). -/
def ConfigBlock.commonSound (c : ConfigBlock) : Bool :=
  inRange 1 31 c.number && inRange 1 2 c.roleByte && inRange 100 2000 c.pTime && inRange 20 1000 c.wTime
    && inRange 1 60 c.qTime
    && ((List.range 4).all fun i => inRange 1 65534 (c.word (0x18 + 2 * i)) && inRange 0 65534 (c.word (0x20 + 2 * i))
        && inRange 1 65534 (c.word (0x28 + 2 * i)) && inRange 0 65534 (c.word (0x30 + 2 * i)))
    && inRange 1 32 c.threshold

/-- R40, R187: the fields that a crane station alone reads lie in their ranges: its place and rating, and what its steps,
estimates, costs and learning use (R111, R113, R115, R155, R160; log 65). -/
def ConfigBlock.craneSound (c : ConfigBlock) : Bool :=
  inRange 0 7 c.aisle && inRange 1 3 (c.byte 0x03) && inRange 1 3 c.rated
    && (!c.craneEnd.tandem || inRange 1 14 c.home)
    && inRange 1 65534 c.pickTime && inRange 1 65534 c.dropTime && inRange 0 65534 c.rearExtra
    && inRange 1 60 c.margin && inRange 0 3 c.retryLimit && inRange 0 1 c.learn

/-- R40, R187: the served docks of a dispatch station are sound. -/
def ConfigBlock.docksSound (c : ConfigBlock) : Bool :=
  inRange 0 4 c.dockCount && decide (c.docks.map (·.1)).Nodup
    && c.docks.all fun d => d.1 ≤ 15 && d.2.1 ≤ 4 && d.2.2 ≤ d.2.1

/-- R40, step 2. -/
def ConfigBlock.sound (c : ConfigBlock) : Bool :=
  c.commonSound && if c.isDispatch then c.docksSound else c.craneSound

/-- R40: the code a JOIN request is refused with; 0 when it is accepted. -/
def State.joinRefusal (s : State) : Nat :=
  if s.mem.st != .offline then wrongState
  else if !s.cfg.sound then badConfig
  else if !s.cfg.isDispatch && s.seqr.crane.state == .unknown then wrongState
  else if !s.cfg.isDispatch && s.cfg.craneEnd.tandem
      && !s.cfg.craneEnd.ownSide s.cfg.home (segment s.seqr.crane.pos) then badConfig
  else 0

/-- R106: the profile classes whose parameters a transaction wrote are computed again. -/
def State.recomputeTouched (s : State) : State :=
  if s.port.touched.isEmpty then s
  else { s with profile := s.cfg.recompute s.port.touched s.profile, port.touched := [] }

/-- R40: an accepted JOIN request (log 17 for a write transaction still open). -/
def State.listen (s : State) : State :=
  let s1 := s.recomputeTouched
  { s1 with
    mem.hash := some s.cfg.paramHash, mem.heard := [], mem.heardHash := [], mem.founding := false
    mem.listenTimer := .running (s.now + s.cfg.fourP) }.setStation .listening .none

/-- R40: JOIN_REQUEST. -/
def joinRequest (s : State) : State :=
  s.takeRequest 1 fun _ s => if s.joinRefusal = 0 then s.listen else s.refuse 1 s.joinRefusal 0 0

/-! ## LEAVE, ACK_FAULT, RESET -/

/-- R52, R14, R102, R177: an accepted LEAVE request. -/
def State.drain (s : State) : State :=
  let s1 := { s with mem.leaveMark := true }.setStation .draining .none
  s1.dropUnqueued.endServe.clearAllot.duedDigest

/-- R52: LEAVE_REQUEST. -/
def leaveRequest (s : State) : State :=
  s.takeRequest 2 fun _ s => if s.mem.st = .active then s.drain else s.refuse 2 wrongState 0 0

/-- R55: ACK_FAULT. -/
def ackFault (s : State) : State :=
  s.takeRequest 3 fun _ s => if s.mem.st = .faulted then s.leave .acknowledged else s.refuse 3 wrongState 0 0

/-- R194: RESET_REQUEST. -/
def resetRequest (s : State) : State := s.takeRequest 4 fun _ s => s.resetAll

/-! ## SUBMIT (R10–R13) -/

/-- R11: an endpoint of a SUBMIT is refused: its form is not the one asked for, or its fields lie outside it. -/
def endpointBad (dock : Bool) (form : Byte) (pos level : Nat) : Bool :=
  formDock form != dock ||
    if dock then !(pos == 0 || pos == 127) || level != 0 || formSide form != 0 || formDepth form != 0
    else !inRange 1 126 pos || 31 < level

/-- R8, R24: the job record of a SUBMIT under an id; the reserved bits of the forms are carried 0 (log 31). -/
def submitted (id : JobId) (r : List Byte) : JobRecord where
  id := id
  kind := byteAt r 2
  aisle := byteAt r 3
  srcForm := r.getD 4 0 &&& 7
  srcPos := byteAt r 5
  srcLevel := byteAt r 6
  dstForm := r.getD 7 0 &&& 7
  dstPos := byteAt r 8
  dstLevel := byteAt r 9
  classPrio := b8 (byteAt r 10 + 128 * byteAt r 11)
  pred := wordAt r 12

/-- R12: an id formed from the station's number and a sequence, taken on the board or in the Offer List. -/
def State.idTaken (s : State) (id : JobId) : Bool :=
  (s.rep.entry id).isSome || s.board.offers.any fun o => o.job.id == id

/-- R12: the first candidate sequence, from `c` on, whose id is not taken. The fuel is the number of sequences. -/
def State.candidate (s : State) : Nat → Nat → Nat
  | 0, c => c
  | n + 1, c => if s.idTaken (s.me * 2048 + c) then s.candidate n ((c + 1) % 2048) else c

/-- R12: the candidate for a SUBMIT taken now. -/
def State.nextSequence (s : State) : Nat := s.candidate 2048 s.board.seqCounter

/-- R11: the index of the first field found wrong; none when every field is right. -/
def State.submitBad (s : State) (r : List Byte) : Option Nat :=
  let j := submitted (s.me * 2048 + s.nextSequence) r
  if r.length ≠ 14 then some 0
  else if !inRange 1 3 j.kind then some 1
  else if 7 < j.aisle then some 2
  else if endpointBad (j.kind == 1) j.srcForm j.srcPos j.srcLevel then some 3
  else if endpointBad (j.kind == 2) j.dstForm j.dstPos j.dstLevel
      || (j.kind == 3 && formSide j.srcForm == formSide j.dstForm && j.srcPos == j.dstPos && j.srcLevel == j.dstLevel) then
    some 4
  else if !inRange 1 3 (byteAt r 10) then some 5
  else if 1 < byteAt r 11 then some 6
  else if inRange 1 2047 j.pred || j.pred == j.id then some 7
  else none

/-- R13: an accepted SUBMIT. -/
def State.accept (s : State) (r : List Byte) : State :=
  let c := s.nextSequence
  let j := submitted (s.me * 2048 + c) r
  let o : OfferItem := { job := j, queued := false }
  { s with board.offers := s.board.offers ++ [o], board.seqCounter := (c + 1) % 2048 }.give (noticeJob j.id 0 0 0)

/-- R10: a SUBMIT waits at the head on an ACTIVE dispatch station whose Offer List is full. -/
def State.submitWaits (s : State) : Bool :=
  s.cfg.isDispatch && s.mem.st == .active && decide (Config.offerCapacity ≤ s.board.offers.length)

/-- R10, R11: SUBMIT. -/
def submit (s : State) : State :=
  s.takeRequestUnless 5 (fun _ s => s.submitWaits) fun r s =>
    if !s.cfg.isDispatch then s.refuse 5 wrongRole 0 0
    else if s.mem.st != .active then s.refuse 5 wrongState 0 0
    else match s.submitBad r with
      | some i => s.refuse 5 badField i 0
      | none => s.accept r

/-! ## CANCEL and RESOLVE_JOB (R71, R72, R75) -/

/-- R72: the list of CANCEL and RESOLVE marks is full. -/
def State.marksFull (s : State) : Bool := decide (Config.markCapacity ≤ s.board.marks.length)

/-- R71: the id stands in the Offer List, with its OFFER queued or not. -/
def State.offered (s : State) (id : JobId) (queued : Bool) : Bool :=
  s.board.offers.any fun o => o.job.id == id && o.queued == queued

/-- R71, R72: a CANCEL request waits at the head. -/
def State.cancelWaits (r : List Byte) (s : State) : Bool :=
  s.marksFull || (s.cfg.isDispatch && s.mem.st == .active && s.offered (wordAt r 2) true)

/-- R71: a CANCEL request on an ACTIVE dispatch station. -/
def State.cancelAsked (s : State) (id : JobId) : State :=
  if s.offered id false then
    { s with board.offers := s.board.offers.filter fun o => o.job.id != id }.give
      (noticeJob id JobState.cancelled.code 0 10)
  else if (s.rep.entry id).isSome then
    if s.board.marks.contains (.cancel id) then s else { s with board.marks := s.board.marks ++ [.cancel id] }
  else s.refuse 6 noSuchJob 0 0

/-- R71: CANCEL_REQUEST. -/
def cancelRequest (s : State) : State :=
  s.takeRequestUnless 6 State.cancelWaits fun r s =>
    if !s.cfg.isDispatch then s.refuse 6 wrongRole 0 0
    else if s.mem.st != .active then s.refuse 6 wrongState 0 0
    else s.cancelAsked (wordAt r 2)

/-- A RESOLVE mark of an id. -/
def BoardMark.resolves (id : JobId) : BoardMark → Bool
  | .resolve j _ => j == id
  | .cancel _ => false

/-- R75: RESOLVE_JOB; a mark replaced stands at the tail (log 23). -/
def resolveJob (s : State) : State :=
  s.takeRequestUnless 8 (fun _ s => s.marksFull) fun r s =>
    let id := wordAt r 2
    let outcome := byteAt r 4
    if !s.cfg.isDispatch then s.refuse 8 wrongRole 0 0
    else if s.mem.st != .active then s.refuse 8 wrongState 0 0
    else if !inRange 1 2 outcome then s.refuse 8 badField 1 0
    else if (s.rep.entry id).any fun e => e.state == .stranded then
      { s with board.marks := (s.board.marks.filter fun m => !m.resolves id) ++ [.resolve id outcome] }
    else s.refuse 8 noSuchJob 0 0

/-! ## FREE_DOCK (R125) -/

/-- R125: the own table holds the dock's record with the station as server. -/
def State.serves (s : State) (n : Nat) : Bool := (s.rep.dock n).any fun d => d.server == some s.me

/-- R125: FREE_DOCK. -/
def freeDock (s : State) : State :=
  s.takeRequestUnless 7 (fun _ s => decide (Config.dockMarkCapacity ≤ s.dockMarks.length)) fun r s =>
    let n := byteAt r 2
    let count := byteAt r 3
    if !s.cfg.isDispatch then s.refuse 7 wrongRole 0 0
    else if !s.running then s.refuse 7 wrongState 0 0
    else if 15 < n then s.refuse 7 badField 0 0
    else if !inRange 1 4 count then s.refuse 7 badField 1 0
    else if !s.serves n then s.refuse 7 badField 0 0
    else { s with dockMarks := s.dockMarks ++ [(n, count)] }

/-! ## RESOLVE_AISLE (R145) -/

/-- R145: RESOLVE_AISLE; a mark replaced stands at the tail (log 23). -/
def resolveAisle (s : State) : State :=
  s.takeRequest 9 fun r s =>
    let aisle := byteAt r 2
    let v := byteAt r 3
    if !s.cfg.isDispatch then s.refuse 9 wrongRole 0 0
    else if s.mem.st != .active then s.refuse 9 wrongState 0 0
    else match s.rep.aisle aisle with
      | none => s.refuse 9 badField 0 0
      | some a =>
        if 7 < aisle || a.form != .tandem || a.state != .frozen then s.refuse 9 badField 0 0
        else if !a.resolvable v then s.refuse 9 badField 1 0
        else { s with bnd.resolveMarks := dropKey Prod.fst aisle s.bnd.resolveMarks ++ [(aisle, v)] }

/-! ## Records no block owns (R189) -/

/-- R189: REQUEST_BAD_KIND. -/
def requestBadKind (s : State) : State :=
  match s.port.requests with
  | [] => s
  | r :: _ => if ownedRecord r then s else s.popRequest.refuse (byteAt r 1) badField 255 0

end Sys2Proof.Machine
end

