-- ==== Sys2Proof/Machine/Window.lean ====
section
/-! DEFINITION. The Local Port's window (11_the_local_port.md): regions and the address pointer (R184, R185), the bytes each
address shows (R185, R195), the data bytes read and written (R186–R191, R107), the select line (R184) and the RESET pin
(R194). -/

namespace Sys2Proof.Machine

/-! ## Regions and slots -/

/-- R185: the region that holds an address, as its first address and length. -/
def regionOf (a : Nat) : Option (Nat × Nat) :=
  [(0x0000, 64), (0x0100, 66), (0x0200, 1), (0x0280, 1), (0x0400, 496), (0x0600, 128), (0x0680, 256), (0x0780, 80),
    (0x0800, 2048), (0x1000, 512)].find? fun r => r.1 ≤ a && a < r.1 + r.2

/-- R184: the address pointer after a data byte at `a`, in a transaction that started at `start`. -/
def nextPointer (start a : Nat) : Nat :=
  match regionOf start with
  | some r => r.1 + (a - r.1 + 1) % r.2
  | none => (a + 1) % 65536

/-- R185, R195: the slot that holds an address of a view region, as its first address and length. -/
def slotOf (a : Nat) : Option (Nat × Nat) :=
  let slot (first len : Nat) : Nat × Nat := (first + (a - first) / len * len, len)
  if 0x0400 ≤ a ∧ a < 0x05F0 then some (slot 0x0400 16)
  else if 0x0600 ≤ a ∧ a < 0x0680 then some (slot 0x0600 8)
  else if 0x0680 ≤ a ∧ a < 0x0780 then some (slot 0x0680 32)
  else if 0x0780 ≤ a ∧ a < 0x07C0 then some (slot 0x0780 16)
  else if 0x07C0 ≤ a ∧ a < 0x07D0 then some (slot 0x07C0 4)
  else if 0x0800 ≤ a ∧ a < 0x1000 then some (slot 0x0800 32)
  else none

/-! ## What a slot shows (R195) -/

/-- R192: the own ask's code and value. -/
def OwnAsk.shown : OwnAsk → List Byte
  | .none => [0, 0]
  | .sending v _ => [1, b8 v]
  | .waiting v _ => [2, b8 v]

/-- R192: the partner ask's code and value. -/
def PartnerAsk.shown : PartnerAsk → List Byte
  | .none => [0, 0]
  | .deferred v _ => [1, b8 v]
  | .granting v _ => [2, b8 v]
  | .held v _ => [3, b8 v]

/-- R192: the answer mark's code, value and reason. -/
def AnswerMark.shown : AnswerMark → List Byte
  | .none => [0, 0, 0]
  | .grant v _ _ => [2, b8 v, 0]
  | .refuse v reason _ _ => [3, b8 v, b8 reason]

/-- A timer that runs. -/
def Timer.isRunning : Timer → Bool
  | .running _ => true
  | _ => false

/-- R136, R195: the ask state in field order. -/
def BoundaryUnit.shown (b : BoundaryUnit) : List Byte :=
  b.ownAsk.shown ++ b.partnerAsk.shown ++ b.answer.shown ++ [b8 (bit b.reAsk.isRunning)] ++ be16 (orZero b.lastWaited)

/-- R148, R195: a run-list job in field order, its milestone marks in three fixed places (log 43). -/
def RunJob.shown (r : RunJob) : List Byte :=
  let marks := r.marks.flatMap fun m => [b8 m.milestone, b8 m.detail]
  be16 r.id ++ [b8 (bit r.urgent), b8 r.phase.code] ++ be16 r.remaining
    ++ [b8 (bit r.loaded), b8 r.loadClass, b8 r.marks.length] ++ (marks ++ List.replicate 6 0).take 6
    ++ [b8 (bit r.finalSent)]

/-- R195: a pending-award slot; the slots hold the pending awards in the order of their list (log 59). -/
def PendingAward.shown (a : PendingAward) : List Byte := be16 a.job ++ [b8 a.mode.code, b8 a.attempt]

/-- R195: the bytes of the slot whose first address is given; bytes past its item read as 0, and so does a slot that holds
no item (an aisle's ask state with its record, log 42). The board view shows its entries by ascending id (log 55). -/
def State.slotBytes (s : State) (first : Nat) : List Byte :=
  if first < 0x0600 then
    match s.rep.station ((first - 0x0400) / 16 + 1) with
    | some t => t.bytes ++ t.presence
    | none => []
  else if first < 0x0680 then
    match s.rep.dock ((first - 0x0600) / 8) with
    | some d => d.bytes ++ [1]
    | none => []
  else if first < 0x0780 then
    match s.rep.aisle ((first - 0x0680) / 32) with
    | some a =>
      a.bytes ++ [1] ++
        (if !s.cfg.isDispatch && s.cfg.craneEnd.tandem && a.aisle == s.cfg.aisle then s.bnd.shown else [])
    | none => []
  else if first < 0x07C0 then (s.seqr.runList[(first - 0x0780) / 16]?.map RunJob.shown).getD []
  else if first < 0x07D0 then (s.seqr.awards[(first - 0x07C0) / 4]?.map PendingAward.shown).getD []
  else (s.rep.jobs[(first - 0x0800) / 32]?.map JobEntry.bytes).getD []

/-! ## The control and status region (R185) -/

/-- R185: the bytes of offsets 0x00–0x28 of the control and status region, in order; state to which R185 gives no offset is
not shown (log 54), and a step id, donor or requester that is absent reads as 0 (log 63). -/
def State.statusBytes (s : State) : List Byte :=
  let c := s.seqr.crane
  [0xA7, 1, b8 s.mem.st.code, b8 s.mem.cause.code, b8 c.state.code, b8 c.pos, b8 c.level] ++ be16 (orZero c.load)
    ++ [b8 c.stall.code]
    ++ (match c.step with
        | some st => [b8 st.id, b8 st.status.code]
        | none => [0, 0])
    ++ [b8 s.port.requests.length, b8 s.port.notices.length, b8 s.cfg.threshold, rawInterrupts s.cfg s.port,
        s.port.enable, maskedInterrupts s.cfg s.port, b8 (bit s.port.locked), b8 (bit s.link.loss), b8 s.cons.mismatch,
        b8 s.cons.phase.code, b8 s.cons.tryNo, b8 (orZero s.cons.donor), b8 (orZero s.cons.serving)]
    ++ be16 s.cons.itemsApplied ++ be16 s.cons.itemsSent ++ [b8 s.rep.jobs.length] ++ be32 s.rep.signature
    ++ be16 (s.mem.hash.elim 0 BitVec.toNat) ++ [b8 s.link.ownSeq, b8 s.link.lastSender] ++ be16 s.board.seqCounter
    ++ [b8 s.board.offers.length]

/-- R105: a byte of the profile region. -/
def State.profileByte (s : State) (offset : Nat) : Byte :=
  let n := s.profile.at (offset / 2)
  if offset % 2 = 0 then b8 (n / 256) else b8 n

/-- R185: the byte shown at an address that is neither a port, a clear location nor in a view; addresses in no region read
as 0 (R184). -/
def State.shown (s : State) (a : Nat) : Byte :=
  if a < 0x40 then s.statusBytes.getD a 0
  else if inConfigBlock a then s.cfg[a - 0x0100]?.getD 0
  else if inProfileRegion a then s.profileByte (a - 0x1000)
  else 0

/-! ## Data bytes read -/

/-- R191: a data byte read at the notice port. -/
def Port.readNotice (p : Port) : Byte × Port :=
  match p.notices with
  | [] => (0, p)
  | n :: rest =>
    (n.getD p.noticePos 0,
      if n.length ≤ p.noticePos + 1 then { p with notices := rest, noticePos := 0 }
      else { p with noticePos := p.noticePos + 1 })

/-- R195: a data byte read in a view: from the slot's capture, made at the slot's first byte read in the transaction. -/
def State.readSlot (s : State) (a first : Nat) : Byte × Port :=
  match findKey Prod.fst first s.port.captured with
  | some c => (c.2.getD (a - first) 0, s.port)
  | none =>
    let bytes := s.slotBytes first
    (bytes.getD (a - first) 0, { s.port with captured := (first, bytes) :: s.port.captured })

/-- R184–R186, R191, R195: the value of a data byte read at an address, and the port after it. -/
def State.readAt (s : State) (a : Nat) : Byte × Port :=
  if a = 0x0280 then s.port.readNotice
  else if isClearLocation a then
    let r := s.port.readClear a
    (b8 (bit r.1), r.2)
  else match slotOf a with
    | some r => s.readSlot a r.1
    | none => (s.shown a, s.port)

/-! ## Data bytes written -/

/-- R188, R189: a byte written to the request port. -/
def Port.assemble (p : Port) (v : Byte) : Port :=
  if p.discard then p
  else match p.asm with
    | [] =>
      if 2 ≤ v.toNat ∧ v.toNat ≤ 32 then { p with asm := [v] }
      else { p with discard := true, requestTorn := true }
    | b :: _ =>
      let r := p.asm ++ [v]
      if r.length < b.toNat then { p with asm := r }
      else if p.requests.length < Config.requestCapacity then { p with asm := [], requests := p.requests ++ [r] }
      else { p with asm := [], requestOverflow := true }

/-- R106: the profile class whose parameters an offset of the configuration block belongs to. -/
def profileClass (offset : Nat) : Option Nat :=
  if 0x18 ≤ offset ∧ offset < 0x38 then some ((offset - 0x18) / 2 % 4) else none

/-- R106, R187: a byte written to the configuration block. DESIGN CHOICE: the role byte written to DISPATCH leaves the crane
record as it stands (log 67). -/
def State.writeConfig (s : State) (offset : Nat) (v : Byte) : State :=
  if s.mem.st = .offline then
    { s with cfg := s.cfg.setIfInBounds offset v
             port.touched := (profileClass offset).toList ++ s.port.touched }
  else { s with port.locked := true }

/-- R107: a byte written to the profile region. -/
def State.writeProfile (s : State) (offset : Nat) (v : Byte) : State :=
  if s.mem.st = .offline then
    if offset % 2 = 0 then { s with port.firstByte := some (offset / 2, v) }
    else match s.port.firstByte with
      | some (i, hi) =>
        if i = offset / 2 then
          { s with profile := s.profile.setIfInBounds i (holdTime (hi.toNat * 256 + v.toNat)), port.firstByte := none }
        else s
      | none => s
  else { s with port.locked := true }

/-- R184–R188: a data byte written at an address. -/
def State.writeAt (s : State) (a : Nat) (v : Byte) : State :=
  if a = 0x10 then { s with port.enable := v }
  else if a = 0x0200 then { s with port := s.port.assemble v }
  else if inConfigBlock a then s.writeConfig (a - 0x0100) v
  else if inProfileRegion a then s.writeProfile (a - 0x1000) v
  else s

/-! ## Transactions (R184) -/

/-- R184: the access bytes READ and WRITE. -/
def accessByte (write : Bool) : Byte := if write then 2 else 1

/-- R184, R194: the transaction in which a data byte moves at an address, in a direction. A first byte begins one, void after
an access byte other than 1 or 2 and while the RESET pin is held (log 4). A further byte belongs to the transaction in
progress, whose pointer stands at its address, or to one that was cut off before its first data byte by a reset. None where
the byte cannot be commanded (log 36). -/
def Port.transaction (p : Port) (first : Opening) (write : Bool) (a : Nat) : Option Transaction :=
  match first, p.txn with
  | some c, none =>
    let void := p.resetHeld || !(c == accessByte false || c == accessByte true)
    if void || c == accessByte write then some { write := write, start := a, pointer := a, void := void } else none
  | none, some t =>
    if p.resetHeld || t.void then some t.voided
    else if t.write == write && t.pointer == a then some t
    else none
  | none, none => some { write := write, start := a, pointer := a, void := true }
  | some _, some _ => none

/-- R184: the transaction after a data byte. -/
def Transaction.next (t : Transaction) : Transaction := { t with pointer := nextPointer t.start t.pointer }

/-- R184: the data bytes of the transaction are read or written: it is not void and started in a region. -/
def Transaction.live (t : Transaction) : Bool := !t.void && (regionOf t.start).isSome

/-- R184: a byte has moved, and data out shows `out`. -/
def Port.moved (p : Port) (t : Transaction) (out : Byte) : Port := { p with txn := some t.next, dataOut := out }

/-- R184: a data byte read at an address: in a void transaction, or one that started in no region, it reads as 0. -/
def State.portRead (s : State) (first : Opening) (a : Nat) : State :=
  match s.port.transaction first false a with
  | some t =>
    let r := if t.live then s.readAt a else (0, s.port)
    { s with port := r.2.moved t r.1 }
  | none => s

/-- R184: a data byte written at an address: in a void transaction, or one that started in no region, it is ignored. -/
def State.portWrite (s : State) (first : Opening) (a : Nat) (v : Byte) : State :=
  match s.port.transaction first true a with
  | some t =>
    let s1 := if t.live then s.writeAt a v else s
    { s1 with port := s1.port.moved t 0 }
  | none => s

/-- R184, R188, R191, R107: the select line released: the transaction ends, a part-written record is torn, a part-read
notice stays whole, a first profile byte is discarded. Data out shows 0 from then on (log 62). -/
def Port.released (p : Port) : Port :=
  { p with
    txn := none, captured := [], firstByte := none, noticePos := 0, discard := false, asm := []
    requestTorn := p.requestTorn || !p.asm.isEmpty, dataOut := 0 }

/-- R184, R106: SELECT_RELEASE. -/
def selectRelease (s : State) : State :=
  let s1 := if s.mem.st = .offline then s.recomputeTouched else { s with port.touched := [] }
  { s1 with port := s1.port.released }

/-- R194: RESET_PIN: the reset is taken, and held until the pin is released. -/
def resetPin (s : State) : State :=
  let s1 := s.resetAll
  { s1 with port.resetHeld := true }

/-- R194, R17: RESET_PIN_RELEASE: the reset ends; the interval timing counts from this moment. -/
def resetPinRelease (s : State) : State :=
  if s.port.resetHeld then { s with port.resetHeld := false, link.intervalFrom := s.now } else s

end Sys2Proof.Machine
end

