-- ==== Sys2Proof/Machine/Meanings.lean ====
section
/-! DEFINITION. The meaning of each command: every one answers a next state. A command of the port's serial bytes, of the
select line or of the RESET pin acts at once; every other is taken only while the RESET pin is not held (State.run). -/

namespace Sys2Proof.Machine

/-- R40: JOIN_REQUEST. -/
def execJoinRequest (s : State) : Host.Outcome State Fault Refusal := .next (s.run joinRequest)

/-- R52: LEAVE_REQUEST. -/
def execLeaveRequest (s : State) : Host.Outcome State Fault Refusal := .next (s.run leaveRequest)

/-- R55: ACK_FAULT. -/
def execAckFault (s : State) : Host.Outcome State Fault Refusal := .next (s.run ackFault)

/-- R194: RESET_REQUEST. -/
def execResetRequest (s : State) : Host.Outcome State Fault Refusal := .next (s.run resetRequest)

/-- R10–R13: SUBMIT. -/
def execSubmit (s : State) : Host.Outcome State Fault Refusal := .next (s.run submit)

/-- R71: CANCEL_REQUEST. -/
def execCancelRequest (s : State) : Host.Outcome State Fault Refusal := .next (s.run cancelRequest)

/-- R125: FREE_DOCK. -/
def execFreeDock (s : State) : Host.Outcome State Fault Refusal := .next (s.run freeDock)

/-- R75: RESOLVE_JOB. -/
def execResolveJob (s : State) : Host.Outcome State Fault Refusal := .next (s.run resolveJob)

/-- R145: RESOLVE_AISLE. -/
def execResolveAisle (s : State) : Host.Outcome State Fault Refusal := .next (s.run resolveAisle)

/-- R157: HOMED. -/
def execHomed (s : State) : Host.Outcome State Fault Refusal := .next (s.run homed)

/-- R158: STEP_DONE. -/
def execStepDone (s : State) : Host.Outcome State Fault Refusal := .next (s.run stepDone)

/-- R159: STEP_FAULT. -/
def execStepFault (s : State) : Host.Outcome State Fault Refusal := .next (s.run stepFault)

/-- R161: RETRY. -/
def execRetry (s : State) : Host.Outcome State Fault Refusal := .next (s.run retry)

/-- R162: ABANDON. -/
def execAbandon (s : State) : Host.Outcome State Fault Refusal := .next (s.run abandon)

/-- R164: MODE_MANUAL. -/
def execModeManual (s : State) : Host.Outcome State Fault Refusal := .next (s.run modeManual)

/-- R164: MODE_AUTO. -/
def execModeAuto (s : State) : Host.Outcome State Fault Refusal := .next (s.run modeAuto)

/-- R164: MODE_OUT_OF_SERVICE. -/
def execModeOutOfService (s : State) : Host.Outcome State Fault Refusal := .next (s.run modeOutOfService)

/-- R164: MODE_IN_SERVICE. -/
def execModeInService (s : State) : Host.Outcome State Fault Refusal := .next (s.run modeInService)

/-- R189: REQUEST_BAD_KIND. -/
def execRequestBadKind (s : State) : Host.Outcome State Fault Refusal := .next (s.run requestBadKind)

/-- R188: REQUEST_PORT_WRITE. -/
def execRequestPortWrite (value : Byte) (s : State) (first : Opening := none) : Host.Outcome State Fault Refusal :=
  .next (s.portWrite first 0x0200 value)

/-- R191: NOTICE_PORT_READ. -/
def execNoticePortRead (s : State) (first : Opening := none) : Host.Outcome State Fault Refusal :=
  .next (s.portRead first 0x0280)

/-- R186, and R185 for a data byte read at any other address (log 36): CLEAR_LOCATION_READ. -/
def execClearLocationRead (addr : Nat) (s : State) (first : Opening := none) : Host.Outcome State Fault Refusal :=
  .next (s.portRead first addr)

/-- R186: INTERRUPT_ENABLE_WRITE. -/
def execInterruptEnableWrite (value : Byte) (s : State) (first : Opening := none) : Host.Outcome State Fault Refusal :=
  .next (s.portWrite first 0x10 value)

/-- R187: CONFIGURATION_BLOCK_WRITE. -/
def execConfigurationBlockWrite (addr : Nat) (value : Byte) (s : State) (first : Opening := none) : Host.Outcome State Fault Refusal :=
  .next (s.portWrite first addr value)

/-- R107: PROFILE_TABLE_WRITE. -/
def execProfileTableWrite (addr : Nat) (value : Byte) (s : State) (first : Opening := none) : Host.Outcome State Fault Refusal :=
  .next (s.portWrite first addr value)

/-- R185: IGNORED_WRITE. -/
def execIgnoredWrite (addr : Nat) (value : Byte) (s : State) (first : Opening := none) : Host.Outcome State Fault Refusal :=
  .next (s.portWrite first addr value)

/-- R184: SELECT_RELEASE. -/
def execSelectRelease (s : State) : Host.Outcome State Fault Refusal := .next (selectRelease s)

/-- R194: RESET_PIN. -/
def execResetPin (s : State) : Host.Outcome State Fault Refusal := .next (resetPin s)

/-- R16, R25: FRAME_START. -/
def execFrameStart (position : Nat) (lineIdle : Bool) (s : State) : Host.Outcome State Fault Refusal := .next (s.run (frameStart position lineIdle))

/-- R19, R20: COLLISION. -/
def execCollision (s : State) : Host.Outcome State Fault Refusal := .next (s.run collision)

/-- R29: FRAME_COMPLETE. -/
def execFrameComplete (s : State) : Host.Outcome State Fault Refusal := .next (s.run frameComplete)

/-- R30–R33: FRAME_RECEIVE. -/
def execFrameReceive (bytes : List Byte) (s : State) : Host.Outcome State Fault Refusal := .next (s.run (frameReceive bytes))

/-- R27: MARK_TO_FRAME. -/
def execMarkToFrame (s : State) : Host.Outcome State Fault Refusal := .next (s.run markToFrame)

/-- R41: LISTEN_RECORD. -/
def execListenRecord (s : State) : Host.Outcome State Fault Refusal := .next (s.run listenRecord)

/-- R43: FOUNDING_JOIN. -/
def execFoundingJoin (s : State) : Host.Outcome State Fault Refusal := .next (s.run foundingJoin)

/-- R38: FAULTED_DISCARD. -/
def execFaultedDiscard (s : State) : Host.Outcome State Fault Refusal := .next (s.run faultedDiscard)

/-- R45, R46: APPLY_JOIN. -/
def execApplyJoin (s : State) : Host.Outcome State Fault Refusal := .next (s.run applyJoin)

/-- R54: APPLY_LEAVE. -/
def execApplyLeave (s : State) : Host.Outcome State Fault Refusal := .next (s.run applyLeave)

/-- R53: APPLY_LOST. -/
def execApplyLost (s : State) : Host.Outcome State Fault Refusal := .next (s.run applyLost)

/-- R49, R78, R170: APPLY_DIGEST. -/
def execApplyDigest (s : State) : Host.Outcome State Fault Refusal := .next (s.run applyDigest)

/-- R62–R64: APPLY_OFFER. -/
def execApplyOffer (s : State) : Host.Outcome State Fault Refusal := .next (s.run applyOffer)

/-- R90: APPLY_BID. -/
def execApplyBid (s : State) : Host.Outcome State Fault Refusal := .next (s.run applyBid)

/-- R93: APPLY_AWARD_BID. -/
def execApplyAwardBid (s : State) : Host.Outcome State Fault Refusal := .next (s.run applyAwardBid)

/-- R96: APPLY_AWARD_CHAIN. -/
def execApplyAwardChain (s : State) : Host.Outcome State Fault Refusal := .next (s.run applyAwardChain)

/-- R68: APPLY_PROGRESS_STARTED. -/
def execApplyProgressStarted (s : State) : Host.Outcome State Fault Refusal := .next (s.run applyProgressStarted)

/-- R68: APPLY_PROGRESS_PICKED. -/
def execApplyProgressPicked (s : State) : Host.Outcome State Fault Refusal := .next (s.run applyProgressPicked)

/-- R68: APPLY_PROGRESS_DONE. -/
def execApplyProgressDone (s : State) : Host.Outcome State Fault Refusal := .next (s.run applyProgressDone)

/-- R68: APPLY_PROGRESS_FAILED. -/
def execApplyProgressFailed (s : State) : Host.Outcome State Fault Refusal := .next (s.run applyProgressFailed)

/-- R68: APPLY_PROGRESS_STRANDED. -/
def execApplyProgressStranded (s : State) : Host.Outcome State Fault Refusal := .next (s.run applyProgressStranded)

/-- R68: APPLY_PROGRESS_RELEASED. -/
def execApplyProgressReleased (s : State) : Host.Outcome State Fault Refusal := .next (s.run applyProgressReleased)

/-- R70: APPLY_PROGRESS_EXHAUSTED. -/
def execApplyProgressExhausted (s : State) : Host.Outcome State Fault Refusal := .next (s.run applyProgressExhausted)

/-- R74: APPLY_CANCEL. -/
def execApplyCancel (s : State) : Host.Outcome State Fault Refusal := .next (s.run applyCancel)

/-- R126: APPLY_DOCK. -/
def execApplyDock (s : State) : Host.Outcome State Fault Refusal := .next (s.run applyDock)

/-- R76: APPLY_RESOLVE_JOB. -/
def execApplyResolveJob (s : State) : Host.Outcome State Fault Refusal := .next (s.run applyResolveJob)

/-- R146: APPLY_RESOLVE_AISLE. -/
def execApplyResolveAisle (s : State) : Host.Outcome State Fault Refusal := .next (s.run applyResolveAisle)

/-- R138, R139: APPLY_BOUNDARY_ASK. -/
def execApplyBoundaryAsk (s : State) : Host.Outcome State Fault Refusal := .next (s.run applyBoundaryAsk)

/-- R141: APPLY_BOUNDARY_GRANT. -/
def execApplyBoundaryGrant (s : State) : Host.Outcome State Fault Refusal := .next (s.run applyBoundaryGrant)

/-- R142: APPLY_BOUNDARY_REFUSE. -/
def execApplyBoundaryRefuse (s : State) : Host.Outcome State Fault Refusal := .next (s.run applyBoundaryRefuse)

/-- R174: APPLY_SYNC_ASK. -/
def execApplySyncAsk (s : State) : Host.Outcome State Fault Refusal := .next (s.run applySyncAsk)

/-- R178: APPLY_SNAP_HEAD. -/
def execApplySnapHead (s : State) : Host.Outcome State Fault Refusal := .next (s.run applySnapHead)

/-- R178: APPLY_SNAP_ITEM. -/
def execApplySnapItem (s : State) : Host.Outcome State Fault Refusal := .next (s.run applySnapItem)

/-- R179: APPLY_SNAP_END. -/
def execApplySnapEnd (s : State) : Host.Outcome State Fault Refusal := .next (s.run applySnapEnd)

/-- R42: LISTEN_TIMER_EXPIRY. -/
def execListenTimerExpiry (s : State) : Host.Outcome State Fault Refusal := .next (s.run listenTimerExpiry)

/-- R48: PRESENCE_TIMER_EXPIRY. -/
def execPresenceTimerExpiry (s : State) : Host.Outcome State Fault Refusal := .next (s.run presenceTimerExpiry)

/-- R51: SILENCE_TIMER_EXPIRY. -/
def execSilenceTimerExpiry (peer : Station) (s : State) : Host.Outcome State Fault Refusal := .next (s.run (silenceTimerExpiry peer))

/-- R91, R97: BID_WINDOW_CLOSE. -/
def execBidWindowClose (job : JobId) (s : State) : Host.Outcome State Fault Refusal := .next (s.run (bidWindowClose job))

/-- R98: CUSTODIAL_TIMER_EXPIRY. -/
def execCustodialTimerExpiry (job : JobId) (s : State) : Host.Outcome State Fault Refusal := .next (s.run (custodialTimerExpiry job))

/-- R155: STEP_TIMER_EXPIRY. -/
def execStepTimerExpiry (s : State) : Host.Outcome State Fault Refusal := .next (s.run stepTimerExpiry)

/-- R137, R142: RE_ASK_TIMER_EXPIRY. -/
def execReAskTimerExpiry (s : State) : Host.Outcome State Fault Refusal := .next (s.run reAskTimerExpiry)

/-- R172, R180: SNAPSHOT_TIMER_EXPIRY. -/
def execSnapshotTimerExpiry (s : State) : Host.Outcome State Fault Refusal := .next (s.run snapshotTimerExpiry)

/-- R154: STEP_ISSUE. -/
def execStepIssue (s : State) : Host.Outcome State Fault Refusal := .next (s.run stepIssue)

/-- R194: RESET_PIN_RELEASE. -/
def execResetPinRelease (s : State) : Host.Outcome State Fault Refusal := .next (resetPinRelease s)

end Sys2Proof.Machine
end

