-- ==== Sys2Proof/Machine/Dispatch.lean ====
section
/-! DEFINITION. The dispatch of a command to its meaning. -/

namespace Sys2Proof.Machine

/-- A command's effect on everything but the queue of waiting commands. -/
def exec (i : Instr) (s : State) : Host.Outcome State Fault Refusal :=
  match i with
  | .joinRequest => Sys2Proof.Machine.execJoinRequest s
  | .leaveRequest => Sys2Proof.Machine.execLeaveRequest s
  | .ackFault => Sys2Proof.Machine.execAckFault s
  | .resetRequest => Sys2Proof.Machine.execResetRequest s
  | .submit => Sys2Proof.Machine.execSubmit s
  | .cancelRequest => Sys2Proof.Machine.execCancelRequest s
  | .freeDock => Sys2Proof.Machine.execFreeDock s
  | .resolveJob => Sys2Proof.Machine.execResolveJob s
  | .resolveAisle => Sys2Proof.Machine.execResolveAisle s
  | .homed => Sys2Proof.Machine.execHomed s
  | .stepDone => Sys2Proof.Machine.execStepDone s
  | .stepFault => Sys2Proof.Machine.execStepFault s
  | .retry => Sys2Proof.Machine.execRetry s
  | .abandon => Sys2Proof.Machine.execAbandon s
  | .modeManual => Sys2Proof.Machine.execModeManual s
  | .modeAuto => Sys2Proof.Machine.execModeAuto s
  | .modeOutOfService => Sys2Proof.Machine.execModeOutOfService s
  | .modeInService => Sys2Proof.Machine.execModeInService s
  | .requestBadKind => Sys2Proof.Machine.execRequestBadKind s
  | .requestPortWrite value first => Sys2Proof.Machine.execRequestPortWrite value s first
  | .noticePortRead first => Sys2Proof.Machine.execNoticePortRead s first
  | .clearLocationRead addr first => Sys2Proof.Machine.execClearLocationRead addr s first
  | .interruptEnableWrite value first => Sys2Proof.Machine.execInterruptEnableWrite value s first
  | .configurationBlockWrite addr value first => Sys2Proof.Machine.execConfigurationBlockWrite addr value s first
  | .profileTableWrite addr value first => Sys2Proof.Machine.execProfileTableWrite addr value s first
  | .ignoredWrite addr value first => Sys2Proof.Machine.execIgnoredWrite addr value s first
  | .selectRelease => Sys2Proof.Machine.execSelectRelease s
  | .resetPin => Sys2Proof.Machine.execResetPin s
  | .frameStart position lineIdle => Sys2Proof.Machine.execFrameStart position lineIdle s
  | .collision => Sys2Proof.Machine.execCollision s
  | .frameComplete => Sys2Proof.Machine.execFrameComplete s
  | .frameReceive bytes => Sys2Proof.Machine.execFrameReceive bytes s
  | .markToFrame => Sys2Proof.Machine.execMarkToFrame s
  | .listenRecord => Sys2Proof.Machine.execListenRecord s
  | .foundingJoin => Sys2Proof.Machine.execFoundingJoin s
  | .faultedDiscard => Sys2Proof.Machine.execFaultedDiscard s
  | .applyJoin => Sys2Proof.Machine.execApplyJoin s
  | .applyLeave => Sys2Proof.Machine.execApplyLeave s
  | .applyLost => Sys2Proof.Machine.execApplyLost s
  | .applyDigest => Sys2Proof.Machine.execApplyDigest s
  | .applyOffer => Sys2Proof.Machine.execApplyOffer s
  | .applyBid => Sys2Proof.Machine.execApplyBid s
  | .applyAwardBid => Sys2Proof.Machine.execApplyAwardBid s
  | .applyAwardChain => Sys2Proof.Machine.execApplyAwardChain s
  | .applyProgressStarted => Sys2Proof.Machine.execApplyProgressStarted s
  | .applyProgressPicked => Sys2Proof.Machine.execApplyProgressPicked s
  | .applyProgressDone => Sys2Proof.Machine.execApplyProgressDone s
  | .applyProgressFailed => Sys2Proof.Machine.execApplyProgressFailed s
  | .applyProgressStranded => Sys2Proof.Machine.execApplyProgressStranded s
  | .applyProgressReleased => Sys2Proof.Machine.execApplyProgressReleased s
  | .applyProgressExhausted => Sys2Proof.Machine.execApplyProgressExhausted s
  | .applyCancel => Sys2Proof.Machine.execApplyCancel s
  | .applyDock => Sys2Proof.Machine.execApplyDock s
  | .applyResolveJob => Sys2Proof.Machine.execApplyResolveJob s
  | .applyResolveAisle => Sys2Proof.Machine.execApplyResolveAisle s
  | .applyBoundaryAsk => Sys2Proof.Machine.execApplyBoundaryAsk s
  | .applyBoundaryGrant => Sys2Proof.Machine.execApplyBoundaryGrant s
  | .applyBoundaryRefuse => Sys2Proof.Machine.execApplyBoundaryRefuse s
  | .applySyncAsk => Sys2Proof.Machine.execApplySyncAsk s
  | .applySnapHead => Sys2Proof.Machine.execApplySnapHead s
  | .applySnapItem => Sys2Proof.Machine.execApplySnapItem s
  | .applySnapEnd => Sys2Proof.Machine.execApplySnapEnd s
  | .listenTimerExpiry => Sys2Proof.Machine.execListenTimerExpiry s
  | .presenceTimerExpiry => Sys2Proof.Machine.execPresenceTimerExpiry s
  | .silenceTimerExpiry peer => Sys2Proof.Machine.execSilenceTimerExpiry peer s
  | .bidWindowClose job => Sys2Proof.Machine.execBidWindowClose job s
  | .custodialTimerExpiry job => Sys2Proof.Machine.execCustodialTimerExpiry job s
  | .stepTimerExpiry => Sys2Proof.Machine.execStepTimerExpiry s
  | .reAskTimerExpiry => Sys2Proof.Machine.execReAskTimerExpiry s
  | .snapshotTimerExpiry => Sys2Proof.Machine.execSnapshotTimerExpiry s
  | .stepIssue => Sys2Proof.Machine.execStepIssue s
  | .resetPinRelease => Sys2Proof.Machine.execResetPinRelease s

end Sys2Proof.Machine
end

