-- ==== Sys2Proof/Safety.lean ====
section
/-! DEFINITION. What the statements speak of: when a command's conditions hold (a request at the head, a frame applied, a
port byte attended to), what a leaving leaves, what a failure does to the board, and the invariants of the station. -/

namespace Sys2Proof.Machine

/-! ## When a command acts -/

/-- The RESET pin is not held (R194). -/
abbrev State.awake (s : State) : Prop := s.port.resetHeld = false

/-- R184, R194: a data byte that moves at an address, in a direction, has its effect: no reset is held, and it is the first
of a transaction with the access byte of its direction, or a further one of a transaction in progress that is not void, in
that direction, its pointer at the address; the transaction started in a region. -/
def State.attends (s : State) (first : Opening) (write : Bool) (a : Nat) : Prop :=
  s.port.resetHeld = false ∧
  ((s.port.txn = none ∧ first = some (if write then 2 else 1) ∧ (regionOf a).isSome = true) ∨
   ∃ t, s.port.txn = some t ∧ first = none ∧ t.void = false ∧ t.write = write ∧ t.pointer = a ∧
    (regionOf t.start).isSome = true)

/-- R184: the transaction after a data byte of `State.attends`. -/
def State.txnAfter (s : State) (write : Bool) (a : Nat) : Option Transaction :=
  let start := s.port.txn.elim a Transaction.start
  some { write := write, start := start, pointer := nextPointer start a, void := false }

/-- R184: the data byte that a command moves: whether it is written, its window address, and how it stands to its
transaction. -/
def dataByteOf : Instr → Option (Bool × Nat × Opening)
  | .requestPortWrite _ first => some (true, 0x0200, first)
  | .noticePortRead first => some (false, 0x0280, first)
  | .clearLocationRead a first => some (false, a, first)
  | .interruptEnableWrite _ first => some (true, 0x0010, first)
  | .configurationBlockWrite a _ first | .profileTableWrite a _ first | .ignoredWrite a _ first => some (true, a, first)
  | _ => none

/-- The record `r`, one of the given kind that the kind's block takes, stands at the head of the request queue (R189). -/
abbrev State.requested (s : State) (kind : Nat) (r : List Byte) : Prop := s.awake ∧ s.request kind = some r

/-- The frame `f` stands at the head of the receive queue of a station in ACTIVE, DRAINING or SYNCING, which applies it
(R38). -/
abbrev State.applies (s : State) (f : Frame) : Prop :=
  s.awake ∧ s.onLink = true ∧ s.link.rxq.head? = some f ∧ s.hears f = true

/-! ## The board -/

/-- The tables of two replicas other than their boards and signatures agree. -/
def Replica.sameTables (r r' : Replica) : Prop := r'.roster = r.roster ∧ r'.docks = r.docks ∧ r'.aisles = r.aisles

/-- Every entry but that of `id` is the same on both boards. -/
def Replica.sameEntries (r r' : Replica) (id : JobId) : Prop := ∀ k, k ≠ id → r'.entry k = r.entry k

/-- R79: the notices after one change of state of a job: one JOB notice at the reporting station outside SYNCING. -/
def State.reported (s : State) (e : JobEntry) (owner : Option Station) : Port :=
  if s.mem.st ≠ .syncing ∧ s.rep.reporter e.id = some s.me then
    s.port.give (noticeJob e.id e.state.code (orZero owner) e.reason)
  else s.port

/-- R66: an entry that fails when its predecessor fails: HELD, or claimed by chain. -/
abbrev JobEntry.dependent (e : JobEntry) : Prop := e.state = .held ∨ (e.state = .awarded ∧ e.attempt = 0)

/-- R66: after an entry of `id` failed or was cancelled, every entry that depends on one that failed here is FAILED with
reason PREDECESSOR, and every other entry is kept. -/
def Replica.cascades (r r' : Replica) (id : JobId) : Prop :=
  ∀ k x, k ≠ id → r.entry k = some x →
    (x.dependent ∧ r'.entry x.job.pred ≠ r.entry x.job.pred →
      r'.entry k = some { x with state := .failed, owner := none, bids := [], reason := 3 }) ∧
    (¬ (x.dependent ∧ r'.entry x.job.pred ≠ r.entry x.job.pred) → r'.entry k = some x)

/-- R66: the board `r'` is `r` after the entry `e` entered the terminal state `st`, FAILED or CANCELLED, with its reason. -/
def Replica.failed (r r' : Replica) (e : JobEntry) (st : JobState) (reason : Nat) : Prop :=
  r'.entry e.id = some { e with state := st, owner := none, bids := [], reason := reason } ∧ r.cascades r' e.id

/-! ## Membership -/

/-- R44, R45: the reasons to reject a JOIN of payload `p`, by their codes 1–6 in the order in which they are judged, at a
station whose parameter hash is `hash`. -/
def Replica.rejects (r : Replica) (hash : Option Word16) (p : List Byte) (reason : Nat) : Prop :=
  let role := byteAt p 0
  let aisle := byteAt p 1
  let craneEnd := byteAt p 2
  let pos := byteAt p 3
  let home := byteAt p 5
  let count := byteAt p 8
  let boundary := match r.aisle aisle with
    | some a => orZero a.boundary
    | none => home
  match reason with
  | 1 => (role ≠ 1 ∧ role ≠ 2) ∨ p.length ≠ 9 + 3 * count ∨
      (role = 1 ∧ (7 < aisle ∨ ¬ (1 ≤ craneEnd ∧ craneEnd ≤ 3) ∨ 127 < pos ∨ 31 < byteAt p 4 ∨
        (craneEnd = 3 ∧ home ≠ 0) ∨ (craneEnd ≠ 3 ∧ ¬ (1 ≤ home ∧ home ≤ 14)) ∨ count ≠ 0)) ∨
      (role = 2 ∧ (aisle ≠ 0 ∨ craneEnd ≠ 0 ∨ pos ≠ 0 ∨ byteAt p 4 ≠ 0 ∨ home ≠ 0 ∨ 4 < count ∨
        ∃ i < count, 15 < byteAt p (9 + 3 * i) ∨ 4 < byteAt p (10 + 3 * i) ∨ 4 < byteAt p (11 + 3 * i)))
  | 2 => hash ≠ some (BitVec.ofNat 16 (wordAt p 6))
  | 3 => role = 1 ∧ ∃ x ∈ r.roster, x.role = .crane ∧ x.aisle = aisle ∧ x.craneEnd.code = craneEnd
  | 4 => role = 1 ∧ ∃ a, r.aisle aisle = some a ∧ ((craneEnd = 3 ∧ a.form = .tandem) ∨ (craneEnd ≠ 3 ∧ a.form = .sole))
  | 5 => role = 1 ∧ ((craneEnd = 1 ∧ boundary ≤ pos / 8) ∨ (craneEnd = 2 ∧ pos / 8 ≤ boundary))
  | 6 => (∃ j < count, ∃ i < j, byteAt p (9 + 3 * i) = byteAt p (9 + 3 * j)) ∨
      ∃ i < count, byteAt p (10 + 3 * i) < byteAt p (11 + 3 * i)
  | _ => False

/-- R45: a JOIN not rejected. -/
abbrev Replica.acceptsJoin (r : Replica) (hash : Option Word16) (p : List Byte) : Prop :=
  ∀ i, 1 ≤ i → i ≤ 6 → ¬ r.rejects hash p i

/-- R45: `reason` is the first that holds. -/
abbrev Replica.firstRejects (r : Replica) (hash : Option Word16) (p : List Byte) (reason : Nat) : Prop :=
  1 ≤ reason ∧ reason ≤ 6 ∧ r.rejects hash p reason ∧ ∀ i, 1 ≤ i → i < reason → ¬ r.rejects hash p i

/-- R46, R121, R132: the docks and the aisle of an accepted JOIN of `n` with payload `p`: the tables `r'` are those of `r`
with a record made for a dock without one, a dock without a server served by `n`, and a crane station in the field of its
end in its aisle's record, SET when the other end's field is present and FROZEN otherwise, which is made when there is
none. R128, R173: on the partial tables of a SYNCING station (`make` false) no record is made. -/
def Replica.entered (r r' : Replica) (n : Station) (p : List Byte) (make : Bool) : Prop :=
  (∀ k, r'.dock k = match (joinDocks p).find? (fun d => d.1 == k), r.dock k with
    | none, held => held
    | some d, none => if make then some { number := k, capacity := d.2.1, free := d.2.1 - d.2.2, reserved := 0
                                          occupied := d.2.2, server := some n } else none
    | some _, some held => some (if held.server = none then { held with server := some n } else held)) ∧
  (byteAt p 0 = 2 → r'.aisles = r.aisles) ∧
  (byteAt p 0 = 1 →
    (∀ a, a ≠ byteAt p 1 → r'.aisle a = r.aisle a) ∧
    (r.aisle (byteAt p 1) = none → r'.aisle (byteAt p 1) = if make then some
      { aisle := byteAt p 1
        form := if byteAt p 2 = 3 then .sole else .tandem
        low := if byteAt p 2 = 1 then some n else none
        high := if byteAt p 2 = 2 then some n else none
        sole := if byteAt p 2 = 3 then some n else none
        boundary := if byteAt p 2 = 3 then none else some (byteAt p 5)
        state := if byteAt p 2 = 3 then .sole else .frozen } else none) ∧
    ∀ held, r.aisle (byteAt p 1) = some held → r'.aisle (byteAt p 1) = some
      { held with
        low := if byteAt p 2 = 1 then some n else held.low
        high := if byteAt p 2 = 2 then some n else held.high
        sole := if byteAt p 2 = 3 then some n else held.sole
        state := if byteAt p 2 = 3 then held.state
          else if (if byteAt p 2 = 1 then held.high else held.low).isSome then .set else .frozen })

/-- R127, R133: the docks and the aisles after the departure of `n`: a dock loses it as its server and has back the places
reserved for the jobs awarded to it, and an aisle record loses it. -/
def Replica.vacated (r r' : Replica) (n : Station) : Prop :=
  (∀ k, r'.dock k = (r.dock k).map fun d =>
    let freed := (r.jobs.filter fun e =>
      e.owner == some n && e.state == .awarded && e.job.isRetrieve && e.job.dockNumber == k).length
    { d with
      server := if d.server = some n then none else d.server
      free := d.free + min d.reserved freed, reserved := d.reserved - min d.reserved freed }) ∧
  (∀ k, r'.aisle k = (r.aisle k).map fun a =>
    { a with
      low := if a.form = .tandem ∧ a.low = some n then none else a.low
      high := if a.form = .tandem ∧ a.high = some n then none else a.high
      sole := if a.form = .sole ∧ a.sole = some n then none else a.sole
      state := if a.form = .tandem ∧ (a.low = some n ∨ a.high = some n) then .frozen else a.state })

/-- R179: the replica holds the station's own item with the role, aisle, end and served docks of its own configuration: a
dispatch station's with aisle 0, end 0 and its configured dock numbers in ascending order (R44, R46, R47), a crane
station's with its aisle, its end and no dock. -/
def State.ownItem (s : State) : Prop :=
  ∃ x, s.rep.station s.me = some x ∧
    (s.cfg.isDispatch = true → x.role = .dispatch ∧ x.aisle = 0 ∧ x.craneEnd = .absent ∧
      x.docks.Pairwise (· ≤ ·) ∧
      x.docks.Perm ((List.range (min s.cfg.dockCount 4)).map fun i => s.cfg.byte (7 + 3 * i))) ∧
    (s.cfg.isDispatch = false → x.role = .crane ∧ x.aisle = s.cfg.aisle ∧ x.craneEnd = s.cfg.craneEnd ∧ x.docks = [])

/-! ## The boundary -/

/-- R139: an ASK of value `v` from `asker`, judged by the crane and the aisle record of `s`, takes the Boundary Unit from
`b` to `b'`; an answer mark set is of age `n`. -/
def State.askJudged (s : State) (v : Nat) (asker : Station) (n : Nat) (b b' : BoundaryUnit) : Prop :=
  let line := orZero s.boundary
  let waiting := ∃ w p, b.ownAsk = .waiting w p
  let stale := if s.cfg.craneEnd = .high then v ≤ line else line ≤ v
  let c := s.seqr.crane
  let unable := (c.state = .unknown ∨ c.state = .stalled ∨ c.state = .manual ∨ c.state = .outOfService) ∨
    s.cfg.craneEnd.ownSide line (c.pos / 8) = false
  let clear := s.cfg.craneEnd.ownSide v (c.pos / 8) = true ∧
    ∀ st x l, c.inFlight = some st → st.act = .travel x l → s.cfg.craneEnd.ownSide v (x / 8) = true
  (waiting → b' = { b with answer := .refuse v 1 asker n }) ∧
  (¬ waiting → stale → b' = { b with answer := .refuse v 3 asker n }) ∧
  (¬ waiting → ¬ stale → unable → b' = { b with answer := .refuse v 2 asker n }) ∧
  (¬ waiting → ¬ stale → ¬ unable → clear →
    b' = { b with partnerAsk := .granting v asker, answer := .grant v asker n }) ∧
  (¬ waiting → ¬ stale → ¬ unable → ¬ clear → b' = { b with partnerAsk := .deferred v asker })

/-- R140: a deferral that `b` holds was judged again by the crane as it stands in `t`: refused UNABLE in UNKNOWN, STALLED,
MANUAL and OUT_OF_SERVICE, which is judged first (log 21, DEDUCED); granted when the crane stands clear, with no step in
flight or a TRAVEL whose target is clear; otherwise it stands. -/
def State.deferralJudged (t : State) (b : BoundaryUnit) : Prop :=
  ∀ v p, b.partnerAsk = .deferred v p →
    let c := t.seqr.crane
    let unable := c.state = .unknown ∨ c.state = .stalled ∨ c.state = .manual ∨ c.state = .outOfService
    let clear := t.cfg.craneEnd.ownSide v (c.pos / 8) = true ∧
      ∀ st, c.inFlight = some st → ∃ x l, st.act = .travel x l ∧ t.cfg.craneEnd.ownSide v (x / 8) = true
    (unable → ∃ n, t.bnd = { b with partnerAsk := .none, answer := .refuse v 2 p n }) ∧
    (¬ unable → clear → ∃ n, t.bnd = { b with partnerAsk := .granting v p, answer := .grant v p n }) ∧
    (¬ unable → ¬ clear → t.bnd = b)

/-! ## The run list -/

/-- R165: `r'` is the run-list job `r` after a milestone with its detail was set for it: one mark more, the last, unless it
holds a mark of that milestone. -/
def RunJob.setsMark (r r' : RunJob) (milestone detail : Nat) : Prop :=
  r'.id = r.id ∧ ∃ n, r'.marks = if r.marks.any (fun k => k.milestone == milestone) then r.marks
    else r.marks ++ [{ milestone := milestone, detail := detail, stamp := n }]

/-- R165: the same for a final milestone, which moves the job to FINISHING. -/
def RunJob.setsFinal (r r' : RunJob) (milestone detail : Nat) : Prop :=
  r.setsMark r' milestone detail ∧ r'.phase = .finishing ∧ r'.finalSent = true ∧ r'.remaining = 0

/-- R163: from `s` to `t` the run list was surrendered: outside FAULTED every job whose final milestone was not set takes
one, STRANDED when it is the head and loaded and RELEASED otherwise, and a job whose final milestone was set is left as it
stood, its estimate apart (R114); in FAULTED the list is left as it stood. -/
def State.surrendered (s t : State) : Prop :=
  t.seqr.runList.map RunJob.id = s.seqr.runList.map RunJob.id ∧
  (s.mem.st = .faulted → t.seqr.runList = s.seqr.runList) ∧
  (s.mem.st ≠ .faulted → (∀ y ∈ t.seqr.runList, y.finalSent = true) ∧
    ∀ x ∈ s.seqr.runList, (∀ z ∈ s.seqr.runList, z.id = x.id → z = x) →
      (x.finalSent = false → ∃ y ∈ t.seqr.runList,
        x.setsFinal y (if s.seqr.head.map RunJob.id = some x.id ∧ x.loaded = true then 5 else 6) 0) ∧
      (x.finalSent = true → ∃ y ∈ t.seqr.runList, { y with remaining := x.remaining } = x))

/-- R114: the remaining estimates were computed anew: each run-list job holds the estimate of its phase, the first term of
the head and of the jobs before it starting where the crane stands or is headed, that of a further job at the destination
of the job before it. -/
def State.estimated (t : State) : Prop :=
  ∀ pre r post n, t.seqr.runList = pre ++ r :: post →
    t.remaining (if ∀ x ∈ pre, x.phase = .finishing then some t.seqr.crane.start
      else (pre.getLast?.bind fun x => t.rep.entry x.id).map fun e => e.job.dest) r = some n →
    r.remaining = n

/-- R150: from the run list `l` to `l'` blocked heads were given up, each taking a RELEASED milestone, and every other job is as
it was. -/
def State.givenUp (t : State) (l l' : List RunJob) : Prop :=
  l'.length = l.length ∧ ∀ (i : Nat) (x y : RunJob), l[i]? = some x → l'[i]? = some y →
    y = x ∨ (x.setsFinal y 6 0 ∧ ∃ z ∈ l, z.id = x.id ∧ t.blocked z = true)

/-- R114, R150: from `s` to `t` the remaining estimates were computed anew, over a list in which no job FINISHING in `s` is in
an earlier phase, and at most blocked heads were given up after that (logs 49 and 72, DESIGN CHOICE). -/
def State.reestimated (s t : State) : Prop :=
  ∃ l, State.estimated { t with seqr.runList := l } ∧ t.givenUp l t.seqr.runList ∧
    ∀ x ∈ l, ∀ z ∈ s.seqr.runList, z.id = x.id → z.phase = .finishing → x.phase = .finishing

/-- R150: the head is not WAITING behind a predecessor that is on the board, live, and not ahead of it in the list. -/
def State.headJudged (t : State) : Prop :=
  ∀ r e, t.seqr.head = some r → r.phase = .waiting → r.finalSent = false → t.rep.entry r.id = some e →
    t.rep.predLive e.job = true → ∃ pre post, t.seqr.runList = pre ++ r :: post ∧ ∃ x ∈ pre, x.id = e.job.pred

/-- R133: at the departure of `n`, on its partner (by the record, or by an ask or answer that concerns `n`; log 40, DEDUCED)
the asks between the two are void with their marks and the re-ask timer stops; elsewhere the Boundary Unit is as it was. -/
def State.asksVoided (s t : State) (n : Station) : Prop :=
  let partner := s.cfg.isDispatch = false ∧ s.cfg.craneEnd.tandem = true ∧
    (s.partner = some n ∨ s.bnd.ownAsk.peer = some n ∨ s.bnd.partnerAsk.peer = some n ∨ s.bnd.answer.peer = some n)
  (partner → t.bnd = { s.bnd with
    ownAsk := if s.bnd.ownAsk.peer = some n then .none else s.bnd.ownAsk
    askMark := if s.bnd.ownAsk.peer = some n then none else s.bnd.askMark
    partnerAsk := if s.bnd.partnerAsk.peer = some n then .none else s.bnd.partnerAsk
    answer := if s.bnd.answer.peer = some n then .none else s.bnd.answer
    reAsk := .stopped }) ∧
  (¬ partner → t.bnd = s.bnd)

/-- R53, R54, R77: the entries after their owner `n` departed: its ACTIVE ones are STRANDED, its AWARDED ones HELD behind a
live predecessor and OPEN otherwise, and every other entry is as it was. -/
def Replica.orphaned (r r' : Replica) (n : Station) : Prop :=
  ∀ k e, r.entry k = some e →
    (e.owner ≠ some n ∨ (e.state ≠ .awarded ∧ e.state ≠ .active) → r'.entry k = some e) ∧
    (e.owner = some n → e.state = .active → r'.entry k = some { e with state := .stranded, bids := [] }) ∧
    (e.owner = some n → e.state = .awarded → ∃ st, (st = .held ∨ st = .opened) ∧
      (st = .held ↔ r.predLive e.job = true) ∧
      r'.entry k = some { e with state := st, owner := none, bids := [], reason := 0 })

/-- R59, R60: what an entry holds in its state: an owner exactly in AWARDED, ACTIVE and STRANDED; bids only in OPEN, at
most four, in ascending order of cost; a reason exactly in FAILED, CANCELLED and REJECTED. -/
def JobEntry.sound (e : JobEntry) : Prop :=
  (e.owner.isSome = e.state.owned) ∧ (e.state ≠ .opened → e.bids = []) ∧ e.bids.length ≤ 4 ∧
  e.bids.Pairwise (fun a b => a.cost ≤ b.cost) ∧
  (e.reason ≠ 0 ↔ e.state = .failed ∨ e.state = .cancelled ∨ e.state = .rejected)

/-- R119: the counters of a dock record add up to its capacity. -/
abbrev DockRecord.balanced (d : DockRecord) : Prop := d.free + d.reserved + d.occupied = d.capacity

/-- R130: what an aisle record holds for its form, and the state that its station fields give. -/
def AisleRecord.sound (a : AisleRecord) : Prop :=
  (a.form = .sole → a.low = none ∧ a.high = none ∧ a.boundary = none ∧ a.state = .sole) ∧
  (a.form = .tandem → a.sole = none ∧ (∃ b, a.boundary = some b ∧ 1 ≤ b ∧ b ≤ 14) ∧
    a.state = (if a.low.isSome ∧ a.high.isSome then BoundaryState.set else .frozen))

/-! ## Leaving -/

/-- R36, R57, R84, R104, R117, R129, R147, R168, R169: what a leaving leaves; `s` is the state before it. -/
def State.leavesTo (s t : State) (cause : Cause) : Prop :=
  t.mem = Membership.cleared cause ∧ t.rep = Replica.empty ∧
  t.link = { Link.cleared t.now with line := s.link.line.departing s.me } ∧
  t.board = { offers := [], seqCounter := s.board.seqCounter, marks := [] } ∧
  t.allot = [] ∧ t.dockMarks = [] ∧ t.bnd = BoundaryUnit.cleared ∧ t.cons = Consistency.cleared ∧
  t.seqr.runList = [] ∧ t.seqr.awards = [] ∧
  t.seqr.crane.state = s.seqr.crane.state ∧ t.seqr.crane.point = s.seqr.crane.point ∧
  t.seqr.crane.load = s.seqr.crane.load ∧ t.seqr.crane.retry = s.seqr.crane.retry ∧
  t.seqr.crane.stall = s.seqr.crane.stall ∧ t.seqr.crane.nextId = s.seqr.crane.nextId ∧
  t.seqr.crane.step = s.seqr.crane.step.map (fun st => { st with job := none }) ∧
  t.cfg = s.cfg ∧ t.profile = s.profile ∧ t.port.enable = s.port.enable ∧ t.port.stateChange = true

/-! ## Invariants -/

/-- R82, R83: the signature is the sum of the checks of the replica's items. -/
abbrev State.signed (s : State) : Prop := s.rep.signature = s.rep.sum

/-- R10, R12, R25, R32, R72, R125, R189, R190: the queues, lists and the sequence counter keep within their bounds; an own frame on the line is
the started head of the transmit queue, and a place for its loopback copy is free. -/
abbrev State.bounded (s : State) : Prop :=
  s.link.txq.length ≤ 16 ∧ s.link.rxq.length ≤ 16 ∧ s.port.requests.length ≤ 8 ∧ s.port.notices.length ≤ 32 ∧
  s.board.offers.length ≤ 4 ∧ s.board.marks.length ≤ 128 ∧ s.dockMarks.length ≤ 4 ∧ s.board.seqCounter < 2048 ∧
  (s.link.line = .own → s.link.rxq.length < 16 ∧ ∃ f rest, s.link.txq = f :: rest ∧ f.sequence.isSome = true)

/-- A table in strictly ascending order of its key: at most one item for any key (R47, R58, R85, R118, R130). -/
abbrev ascendingBy {α : Type} (key : α → Nat) (l : List α) : Prop := l.Pairwise fun a b => key a < key b

/-- R47, R50, R58, R85, R118, R130: every table holds at most one item for any key. -/
abbrev State.keyed (s : State) : Prop :=
  ascendingBy StationItem.number s.rep.roster ∧ ascendingBy DockRecord.number s.rep.docks ∧
  ascendingBy AisleRecord.aisle s.rep.aisles ∧ ascendingBy JobEntry.id s.rep.jobs ∧
  ascendingBy AllotRecord.job s.allot ∧ ascendingBy Prod.fst s.mem.silence

/-- R85: an ACTIVE station holds one allotment record for each OPEN entry, at its attempt, and no other; any other station
holds none. -/
def State.allotted (s : State) : Prop :=
  (s.mem.st = .active → ∀ k, (s.allotment k).map AllotRecord.attempt =
    (s.rep.entry k).bind fun e => if e.state = .opened then some e.attempt else none) ∧
  (s.mem.st ≠ .active → s.allot = [])

/-- R59, R60, R119, R130: every entry, dock record and aisle record of the replica is sound. -/
def State.tabled (s : State) : Prop :=
  (∀ e ∈ s.rep.jobs, e.sound) ∧ (∀ d ∈ s.rep.docks, d.balanced) ∧ (∀ a ∈ s.rep.aisles, a.sound)

/-- R152: the crane's state, stall cause and current step agree, and its position lies on the rail; the stall cause is none
exactly outside STALLED (log 18, DEDUCED). -/
def Crane.sound (c : Crane) : Prop :=
  c.pos ≤ 127 ∧ c.level ≤ 31 ∧
  (c.state = .stepping ↔ ∃ st, c.step = some st ∧ st.status = .outstanding) ∧
  (c.stall = .overdue ↔ ∃ st, c.step = some st ∧ st.status = .overdue) ∧
  (c.stall ≠ .none ↔ c.state = .stalled)

/-- R148: the run list holds no job twice. -/
abbrev State.listed (s : State) : Prop := (s.seqr.runList.map RunJob.id).Nodup

/-- R52: while a frame of the station's own is on the line, no own LEAVE waits in its receive queue: nothing reaches the line
between the LEAVE's completion and its application (log 58, DEDUCED). -/
abbrev State.leaveLast (s : State) : Prop :=
  s.link.line = .own → ∀ g ∈ s.link.rxq, ¬ (g.sender = s.me ∧ g.kind = .leave)

/-- R36, R57, R84, R104, R129, R147, R168, R169: an OFFLINE station holds nothing of the block; R55, R104, R143, R183: a
FAULTED one holds no mark, timer or ask, and transmits nothing but a frame on the line. R169, R171: a
resynchronisation is under way only in SYNCING. -/
def State.quiet (s : State) : Prop :=
  (s.mem.st = .offline →
    (∃ cause, s.mem = Membership.cleared cause) ∧ s.rep = Replica.empty ∧ s.link.txq = [] ∧ s.link.rxq = [] ∧
    s.link.line ≠ .own ∧ s.link.loss = false ∧ s.link.ownSeq = 0 ∧ s.link.collisions = 0 ∧ s.board.offers = [] ∧
    s.board.marks = [] ∧ s.allot = [] ∧ s.dockMarks = [] ∧ s.bnd = BoundaryUnit.cleared ∧ s.seqr.runList = [] ∧
    s.seqr.awards = [] ∧ s.cons = Consistency.cleared) ∧
  (s.mem.st = .listening → s.rep = Replica.empty) ∧
  (s.mem.st ≠ .syncing → s.cons.phase = .none ∧ s.cons.snapTimer = .stopped) ∧
  (s.mem.st = .faulted →
    s.link.txq.length ≤ 1 ∧ (s.link.line ≠ .own → s.link.txq = []) ∧ s.board.offers = [] ∧ s.board.marks = [] ∧
    s.allot = [] ∧ s.dockMarks = [] ∧ s.bnd.ownAsk = .none ∧ s.bnd.partnerAsk = .none ∧ s.bnd.askMark = none ∧
    s.bnd.answer = .none ∧ s.bnd.reAsk = .stopped ∧ s.bnd.resolveMarks = [] ∧ s.seqr.awards = [] ∧
    s.mem.presence = .stopped ∧ s.mem.silence = [] ∧ s.mem.listenTimer = .stopped ∧ s.mem.joinMark = false ∧
    s.mem.leaveFrame = .none ∧ s.mem.lostMarks = [])

end Sys2Proof.Machine
end

