-- ==== Sys2Proof/WellFormed.lean ====
section
/-! DEFINITION. Which commands are well formed: an operand lies in the range its row gives it. A command that is not well
formed still has a meaning (a byte at another address, a position that no station holds); no row stands for it. -/

namespace Sys2Proof

/-- Every operand lies in the range of its row: an address in its region (R185), a position 0–31 (R16), a peer 1–31 (R15),
a job id 1–65535 (R8). -/
def Instr.wf : Instr → Bool
  | .clearLocationRead addr _ => isClearLocation addr
  | .configurationBlockWrite addr _ _ => inConfigBlock addr
  | .profileTableWrite addr _ _ => inProfileRegion addr
  | .ignoredWrite addr _ _ => addr < 65536 && !hasWriteBehaviour addr
  | .frameStart position _ => position < 32
  | .silenceTimerExpiry peer => 1 ≤ peer && peer ≤ 31
  | .bidWindowClose job => 1 ≤ job && job ≤ 65535
  | .custodialTimerExpiry job => 1 ≤ job && job ≤ 65535
  | .joinRequest | .leaveRequest | .ackFault | .resetRequest | .submit | .cancelRequest | .freeDock | .resolveJob
  | .resolveAisle | .homed | .stepDone | .stepFault | .retry | .abandon | .modeManual | .modeAuto | .modeOutOfService
  | .modeInService | .requestBadKind | .requestPortWrite .. | .noticePortRead _ | .interruptEnableWrite .. | .selectRelease
  | .resetPin | .collision | .frameComplete | .frameReceive _ | .markToFrame | .listenRecord | .foundingJoin
  | .faultedDiscard | .applyJoin | .applyLeave | .applyLost | .applyDigest | .applyOffer | .applyBid | .applyAwardBid
  | .applyAwardChain | .applyProgressStarted | .applyProgressPicked | .applyProgressDone | .applyProgressFailed
  | .applyProgressStranded | .applyProgressReleased | .applyProgressExhausted | .applyCancel | .applyDock
  | .applyResolveJob | .applyResolveAisle | .applyBoundaryAsk | .applyBoundaryGrant | .applyBoundaryRefuse
  | .applySyncAsk | .applySnapHead | .applySnapItem | .applySnapEnd | .listenTimerExpiry | .presenceTimerExpiry
  | .stepTimerExpiry | .reAskTimerExpiry | .snapshotTimerExpiry | .stepIssue | .resetPinRelease => true

end Sys2Proof
end

