-- ==== Sys2Proof/Certificates/Slice0/Obligations.lean ====
section
/-! DEFINITION. The statements for the provers: what the machine and each command do by the rules of spec/. A statement's
docstring names its rules, and the log entry where it rests on a choice of the model. -/

open Sys2Proof Sys2Proof.Machine

/-! ## The machine -/

/-- Step of a state whose queue's front is a command is that command's effect on the state with the queue's rest. -/
def Obligations.StepRunsFrontCommand : Prop :=
  ∀ (c : Instr) (rest : List Instr) (s : State), step { s with pending := c :: rest } = exec c { s with pending := rest }

/-- No command stops the machine, and none touches the queue of waiting commands. -/
def Obligations.EveryCommandAnswers : Prop :=
  ∀ (c : Instr) (s : State), ∃ t, exec c s = .next t ∧ t.pending = s.pending

/-- What reset leaves in every block, as the chapters' tables give it (R36, R57, R84, R104, R117, R129, R147, R152, R168,
R169, R194): R187's default column, and the profile table of R106's default parameters. The values no rule states (the
clock, the try, the byte on data out) are not claimed. -/
def Obligations.ResetState : Prop :=
  let s := State.reset
  (s.mem.st = .offline ∧ s.mem.cause = .reset ∧ s.mem.hash = none ∧ s.mem.heard = [] ∧ s.mem.heardHash = [] ∧
    s.mem.lostMarks = [] ∧ s.mem.joinMark = false ∧ s.mem.leaveMark = false ∧ s.mem.silence = [] ∧
    s.mem.presence = .stopped ∧ s.mem.listenTimer = .stopped) ∧
  (s.link.txq = [] ∧ s.link.rxq = [] ∧ s.link.ownSeq = 0 ∧ s.link.lastSender = 0 ∧ s.link.collisions = 0 ∧
    s.link.loss = false ∧ ∀ n < 32, s.link.seqTable[n]? = some none) ∧
  (s.rep.roster = [] ∧ s.rep.docks = [] ∧ s.rep.aisles = [] ∧ s.rep.jobs = [] ∧ s.rep.signature = 0) ∧
  (s.board.offers = [] ∧ s.board.marks = [] ∧ s.board.seqCounter = 0 ∧ s.allot = [] ∧ s.dockMarks = []) ∧
  (s.bnd.ownAsk = .none ∧ s.bnd.partnerAsk = .none ∧ s.bnd.askMark = none ∧ s.bnd.answer = .none ∧
    s.bnd.reAsk = .stopped ∧ s.bnd.lastWaited = none ∧ s.bnd.resolveMarks = []) ∧
  (s.seqr.runList = [] ∧ s.seqr.awards = [] ∧
    s.seqr.crane = { state := .unknown, pos := 0, level := 0, load := none, step := none, retry := 0, stall := .none,
                     nextId := 0, setAside := none }) ∧
  (s.cons.mismatch = 0 ∧ s.cons.phase = .none ∧ s.cons.candidates = [] ∧ s.cons.donor = none ∧
    s.cons.serving = none ∧ s.cons.itemsApplied = 0 ∧ s.cons.itemsSent = 0 ∧ s.cons.snapTimer = .stopped ∧
    s.cons.sent = [] ∧ s.cons.mark = .none) ∧
  (s.port.requests = [] ∧ s.port.asm = [] ∧ s.port.notices = [] ∧ s.port.noticeOverflow = false ∧
    s.port.requestOverflow = false ∧ s.port.requestTorn = false ∧ s.port.stateChange = false ∧
    s.port.locked = false ∧ s.port.enable = 0 ∧ s.irq = false) ∧
  (s.cfg.number = 0 ∧ s.cfg.roleByte = 1 ∧ s.cfg.aisle = 0 ∧ s.cfg.byte 0x03 = 3 ∧ s.cfg.rated = 1 ∧ s.cfg.home = 8 ∧
    s.cfg.dockCount = 0 ∧ (∀ i < 12, s.cfg.byte (7 + i) = 0) ∧ s.cfg.pTime = 250 ∧ s.cfg.wTime = 80 ∧
    s.cfg.qTime = 5 ∧ s.cfg.pickTime = 600 ∧ s.cfg.dropTime = 550 ∧ s.cfg.rearExtra = 250 ∧ s.cfg.margin = 10 ∧
    s.cfg.retryLimit = 2 ∧ s.cfg.learn = 1 ∧ s.cfg.threshold = 1) ∧
  ∀ cl < 4, ∀ k < 32,
    s.profile.at (64 * cl + k) = [40, 45, 50, 60].getD cl 0 + k * [20, 22, 25, 30].getD cl 0 ∧
    s.profile.at (64 * cl + 32 + k) = [60, 70, 80, 95].getD cl 0 + k * [18, 20, 24, 30].getD cl 0

/-! ## Invariants -/

/-- Every invariant holds right after reset. -/
def Obligations.InvariantsAtReset : Prop :=
  State.reset.signed ∧ State.reset.bounded ∧ State.reset.keyed ∧ State.reset.allotted ∧ State.reset.tabled ∧
  State.reset.seqr.crane.sound ∧ State.reset.quiet ∧ State.reset.leaveLast ∧ State.reset.listed ∧
  State.reset.seqr.runList.length + State.reset.seqr.awards.length ≤ 4

/-- R82, R83: every step keeps the signature equal to the sum of the item checks over the replica's items. -/
def Obligations.SignatureKept : Prop := ∀ s t : State, s.signed → step s = .next t → t.signed

/-- R10, R12, R25, R32, R72, R125, R189, R190: every step keeps the queues and lists within their capacities, the sequence
counter below 2048, and a place free for the loopback copy of a frame on the line. R148: it keeps the run list free of any
job twice (log 35, DESIGN CHOICE, for an AWARD of a job in the list); and R92, R148: it keeps the run list and the pending
awards together within 4, where an own AWARD at the head of the receive queue has its pending award (R92) and a board that
a successful snapshot has rebuilt gives the station no more jobs than that (R182). -/
def Obligations.CapacitiesKept : Prop :=
  ∀ s t : State, step s = .next t →
    (s.bounded → t.bounded) ∧
    (s.keyed → s.listed → t.listed ∧
      ((∀ f, s.link.rxq.head? = some f → f.kind = .award → f.sender = s.me → ∃ a ∈ s.seqr.awards,
          a.job = wordAt f.payload 0 ∧ a.attempt = byteAt f.payload 2 ∧ a.mode.code = byteAt f.payload 5) →
        (∀ rest, s.pending = .applySnapEnd :: rest → s.mem.st = .syncing →
          (s.rep.jobs.filter fun e => (e.state == .awarded || e.state == .active) && e.owner == some s.me).length +
            s.seqr.awards.length ≤ 4) →
        s.seqr.runList.length + s.seqr.awards.length ≤ 4 → t.seqr.runList.length + t.seqr.awards.length ≤ 4))

/-- R47, R50, R58, R85, R118, R130: every step keeps at most one item for any key in every table; and R85: every step
keeps an ACTIVE station's allotment records those of its OPEN entries, at their attempts, and any other station's none. -/
def Obligations.KeysKept : Prop :=
  ∀ s t : State, s.keyed → step s = .next t → t.keyed ∧ (s.quiet → s.allotted → t.allotted)

/-- R59, R60, R119, R130: every step but the taking of a snapshot item keeps every entry, dock record and aisle record
sound; and R58: every step, the taking of a snapshot item among them (log 46, DESIGN CHOICE), keeps the board within 64
entries. -/
def Obligations.TablesKept : Prop :=
  ∀ s t : State, step s = .next t →
    ((∀ rest, s.pending ≠ .applySnapItem :: rest) → s.tabled → t.tabled) ∧
    (s.rep.jobs.length ≤ 64 → t.rep.jobs.length ≤ 64)

/-- R152: every step keeps the crane's state, stall cause and current step in agreement and its position on the rail; the
stall cause is none exactly outside STALLED (log 18, DEDUCED). -/
def Obligations.CraneKept : Prop := ∀ s t : State, s.seqr.crane.sound → step s = .next t → t.seqr.crane.sound

/-- R36, R55, R57 and the chapters' tables: every step keeps an OFFLINE station empty of the block's state (its try 0 by log
5, DESIGN CHOICE) and a FAULTED one free of marks, timers and asks. R169, R171: a resynchronisation is under way only in SYNCING (that its timer stops at
ROLE_CONFLICT is log 69, DESIGN CHOICE). R52: and in such states no frame of the station's own is on the line while its
completed LEAVE waits to be applied (log 58, DEDUCED). -/
def Obligations.QuietKept : Prop :=
  ∀ s t : State, s.quiet → step s = .next t → t.quiet ∧ (s.leaveLast → t.leaveLast)

/-- R135: whenever a LOW or HIGH crane is set in motion by a TRAVEL, every segment of its path lies on the station's own
side of the boundary held in the aisle record of its own board. And whenever a step is issued while
a partner ask is DEFERRED or GRANTING, no segment of a TRAVEL's path, and for a PICK or DROP not the segment of the crane's
position, lies among that ask's conceded segments (R134: b + 1 to v for a HIGH crane, v to b − 1 for a LOW one); exempt is
the yield step of R140 alone, to 8v − 1 or 8(v + 1) (a HELD one given again by log 21, DEDUCED). -/
def Obligations.TravelKeepsToOwnSide : Prop :=
  ∀ (s t : State) (st : Step), step s = .next t → s.seqr.crane.state ≠ .stepping →
    t.seqr.crane.state = .stepping → t.seqr.crane.step = some st →
    let crosses (g : Nat) := match st.act with
      | .travel p _ => min (t.seqr.crane.pos / 8) (p / 8) ≤ g ∧ g ≤ max (t.seqr.crane.pos / 8) (p / 8)
      | _ => g = t.seqr.crane.pos / 8
    (∀ p l, st.act = .travel p l → ∃ a, t.rep.aisle t.cfg.aisle = some a ∧
      ∀ g, crosses g →
        (t.cfg.craneEnd = .low → g < a.boundary.getD 0) ∧ (t.cfg.craneEnd = .high → a.boundary.getD 0 < g)) ∧
    let yields := st.yield = true ∧ ∃ v q l, s.bnd.partnerAsk = .deferred v q ∧
      st.act = .travel (if t.cfg.craneEnd = .low then 8 * v - 1 else 8 * (v + 1)) l
    (¬ yields → ∀ v q a, s.bnd.partnerAsk = .deferred v q ∨ s.bnd.partnerAsk = .granting v q →
      t.rep.aisle t.cfg.aisle = some a → ∀ g, crosses g →
        (t.cfg.craneEnd = .high → ¬ (a.boundary.getD 0 + 1 ≤ g ∧ g ≤ v)) ∧
        (t.cfg.craneEnd = .low → ¬ (v ≤ g ∧ g + 1 ≤ a.boundary.getD 0)))

/-! ## What no other command changes -/

/-- R107, R115, R187, R12: but for a reset, the configuration block changes only by a byte written to it in OFFLINE, the
interrupt enable only by a byte written to it, the sequence counter only by a SUBMIT, and the profile table outside
OFFLINE only by a STEP_DONE; in OFFLINE it changes also by a byte written to it, at select release and at the JOIN
request. R152: the crane's position changes only by HOMED and STEP_DONE, its load only by STEP_DONE, ABANDON and a MODE
that returns it, its state and stall cause only by a crane request, a step's issue or expiry and a resynchronisation's
end, and its next step id only by an issue; a role byte written leaves them (log 67, DESIGN CHOICE). -/
def Obligations.SettingsAndCraneFrame : Prop :=
  ∀ (c : Instr) (s t : State), c ≠ .resetPin → c ≠ .resetRequest → exec c s = .next t →
    (c.wf = true →
      ((s.mem.st ≠ .offline ∨ ∀ a v first, c ≠ .configurationBlockWrite a v first) → t.cfg = s.cfg) ∧
      ((∀ v first, c ≠ .interruptEnableWrite v first) → t.port.enable = s.port.enable) ∧
      (c ≠ .submit → t.board.seqCounter = s.board.seqCounter) ∧
      (s.mem.st ≠ .offline → c ≠ .stepDone → t.profile = s.profile) ∧
      ((∀ a v first, c ≠ .profileTableWrite a v first) → c ∉ [.selectRelease, .joinRequest, .stepDone] →
        t.profile = s.profile)) ∧
    (c ∉ [.homed, .stepDone] → t.seqr.crane.pos = s.seqr.crane.pos ∧ t.seqr.crane.level = s.seqr.crane.level) ∧
    (c ∉ [.stepDone, .abandon, .modeAuto, .modeInService] → t.seqr.crane.load = s.seqr.crane.load) ∧
    (c ∉ [.homed, .stepDone, .stepFault, .retry, .abandon, .modeManual, .modeAuto, .modeOutOfService, .modeInService,
        .stepIssue, .stepTimerExpiry, .applySnapEnd] →
      t.seqr.crane.state = s.seqr.crane.state ∧ t.seqr.crane.stall = s.seqr.crane.stall) ∧
    (c ≠ .stepIssue → t.seqr.crane.nextId = s.seqr.crane.nextId)

/-- The replica changes only by a reset, a leaving, the start or end of a resynchronisation and the application of a frame
that the chapters name for it; and a FAULTED station keeps it until it leaves or is reset (R38, R55). -/
def Obligations.ReplicaFrame : Prop :=
  ∀ (c : Instr) (s t : State), exec c s = .next t →
    (c ∉ [.resetPin, .resetRequest, .ackFault, .listenTimerExpiry, .snapshotTimerExpiry, .foundingJoin, .applyJoin,
        .applyLeave, .applyLost, .applyDigest, .applyOffer, .applyBid, .applyAwardBid, .applyAwardChain,
        .applyProgressStarted, .applyProgressPicked, .applyProgressDone, .applyProgressFailed, .applyProgressStranded,
        .applyProgressReleased, .applyProgressExhausted, .applyCancel, .applyDock, .applyResolveJob,
        .applyResolveAisle, .applyBoundaryGrant, .applySnapItem, .applySnapEnd] → t.rep = s.rep) ∧
    (s.quiet → s.mem.st = .faulted → t.mem.st = .faulted → t.rep = s.rep)

/-! ## The Local Port -/

/-- R186, R193: offset 0x10 takes a written byte in every station state; each clear location reads as 1 when its latch or
flag is set and 0 when it is clear, and the read clears it; the raw bits are those of R193, and IRQ is asserted exactly
while a raw bit and its enable bit are set. -/
def Obligations.InterruptFlags : Prop :=
  (∀ (v : Byte) (first : Opening) (s : State), s.attends first true 0x10 →
     exec (.interruptEnableWrite v first) s = .next
       { s with port := { s.port with enable := v, txn := s.txnAfter true 0x10, dataOut := 0 } }) ∧
  (∀ (first : Opening) (s : State),
     let read (a : Nat) (p : Port) (latch : Bool) : Prop :=
       s.attends first false a → exec (.clearLocationRead a first) s = .next
         { s with port := { p with txn := s.txnAfter false a, dataOut := if latch then 1 else 0 } }
     read 0x30 { s.port with noticeOverflow := false } s.port.noticeOverflow ∧
     read 0x31 { s.port with requestOverflow := false } s.port.requestOverflow ∧
     read 0x32 { s.port with requestTorn := false } s.port.requestTorn ∧
     read 0x33 { s.port with stateChange := false } s.port.stateChange ∧
     read 0x34 { s.port with locked := false } s.port.locked) ∧
  (∀ s : State,
     let raw := rawInterrupts s.cfg s.port
     (raw.getLsbD 0 = true ↔ s.cfg.threshold ≤ s.port.notices.length ∧ 1 ≤ s.port.notices.length) ∧
     raw.getLsbD 1 = s.port.noticeOverflow ∧ raw.getLsbD 2 = s.port.requestOverflow ∧
     raw.getLsbD 3 = s.port.requestTorn ∧ raw.getLsbD 4 = s.port.stateChange ∧
     (∀ i, 5 ≤ i → raw.getLsbD i = false) ∧
     (s.irq = true ↔ ∃ i, raw.getLsbD i = true ∧ s.port.enable.getLsbD i = true))

/-- R184, R185, R194: a data byte of a transaction moves the address pointer by one, within the region in which the
transaction started. In a void transaction, one whose access byte is neither 1 nor 2, one in progress at a reset or begun
while the RESET pin is held (log 4, DEDUCED), or one that a reset cut off before its first data byte, a byte is ignored
and reads as 0; so it is in a transaction that started in no region. A byte that R184 cannot move (away from the pointer,
in the other direction, a first byte within a transaction) is not commanded and changes nothing (log 36, DESIGN CHOICE). -/
def Obligations.DataBytesMove : Prop :=
  (∀ a r n, regionOf a = some (r, n) ↔ r ≤ a ∧ a < r + n ∧
    (r, n) ∈ [(0x0000, 64), (0x0100, 66), (0x0200, 1), (0x0280, 1), (0x0400, 496), (0x0600, 128), (0x0680, 256),
      (0x0780, 80), (0x0800, 2048), (0x1000, 512)]) ∧
  (∀ (s : State) (c : Instr) (write : Bool) (a : Nat) (first : Opening), dataByteOf c = some (write, a, first) →
    let ignored (txn : Transaction) := exec c s = .next { s with port := { s.port with txn := some txn, dataOut := 0 } }
    let access (w : Bool) : Byte := if w then 2 else 1
    (∀ r n start, s.attends first write a → start = s.port.txn.elim a Transaction.start → regionOf start = some (r, n) →
      ∃ t x, exec c s = .next t ∧ t.port.txn = some x ∧ x.start = start ∧ x.write = write ∧ x.void = false ∧
        (r ≤ a → a + 1 < r + n → x.pointer = a + 1) ∧ (a + 1 = r + n → x.pointer = r) ∧
        (write = true → t.port.dataOut = 0)) ∧
    (∀ k, s.port.txn = none → first = some k → (k ≠ 1 ∧ k ≠ 2) ∨ s.port.resetHeld = true →
      ignored { write := write, start := a, pointer := nextPointer a a, void := true }) ∧
    (s.port.txn = none → first = none →
      ignored { write := write, start := a, pointer := nextPointer a a, void := true }) ∧
    (∀ x, s.port.txn = some x → first = none → x.void = true ∨ s.port.resetHeld = true →
      ignored { x with pointer := nextPointer x.start x.pointer, void := true }) ∧
    (s.awake → s.port.txn = none → first = some (access write) → regionOf a = none →
      ignored { write := write, start := a, pointer := (a + 1) % 65536, void := false }) ∧
    (∀ x, s.awake → s.port.txn = some x → first = none → x.void = false → x.write = write → x.pointer = a →
      regionOf x.start = none → ignored { x with pointer := (a + 1) % 65536 }) ∧
    (s.awake → s.port.txn = none → first = some (access !write) → exec c s = .next s) ∧
    (∀ x k, s.port.txn = some x → first = some k → exec c s = .next s) ∧
    (∀ x, s.awake → s.port.txn = some x → first = none → x.void = false → x.write ≠ write ∨ x.pointer ≠ a →
      exec c s = .next s))

/-- R188, R189: a byte written to the request port: a record begun, joined, completed into the queue or discarded with
REQUEST_OVERFLOW, a bad length byte torn, and every byte after one ignored; and a record of a kind outside 1–15, or of
another length than its kind's where the kind is not SUBMIT, is refused with code BAD_FIELD and field index 255. R191: a
byte read at the notice port: nothing of an empty queue, the next byte of the head record, which leaves at its last byte.
-/
def Obligations.RequestAndNoticePorts : Prop :=
  (∀ (v : Byte) (first : Opening) (s : State), s.attends first true 0x0200 →
     ∃ p : Port,
       exec (.requestPortWrite v first) s = .next
         { s with port := { p with txn := s.txnAfter true 0x0200, dataOut := 0 } } ∧
       (s.port.discard = true → p = s.port) ∧
       (s.port.discard = false → s.port.asm = [] → 2 ≤ v.toNat → v.toNat ≤ 32 → p = { s.port with asm := [v] }) ∧
       (s.port.discard = false → s.port.asm = [] → ¬ (2 ≤ v.toNat ∧ v.toNat ≤ 32) →
         p = { s.port with discard := true, requestTorn := true }) ∧
       (∀ b more, s.port.discard = false → s.port.asm = b :: more →
         (more.length + 2 < b.toNat → p = { s.port with asm := b :: more ++ [v] }) ∧
         (b.toNat ≤ more.length + 2 → s.port.requests.length < 8 →
           p = { s.port with asm := [], requests := s.port.requests ++ [b :: more ++ [v]] }) ∧
         (b.toNat ≤ more.length + 2 → 8 ≤ s.port.requests.length →
           p = { s.port with asm := [], requestOverflow := true }))) ∧
  (∀ (s : State) (r : List Byte) (rest : List (List Byte)), s.awake → s.port.requests = r :: rest →
     (requestLength (byteAt r 1) = none ∨ ∃ n, requestLength (byteAt r 1) = some n ∧ r.length ≠ n ∧ byteAt r 1 ≠ 5) →
     exec .requestBadKind s = .next
       ({ s with port := { s.port with requests := rest } }.give [7, 8, r.getD 1 0, 3, 255, 0, 0]).markLeave) ∧
  (∀ (first : Opening) (s : State), s.attends first false 0x0280 →
     let read (p : Port) (v : Byte) := exec (.noticePortRead first) s = .next
       { s with port := { p with txn := s.txnAfter false 0x0280, dataOut := v } }
     (s.port.notices = [] → read s.port 0) ∧
     ∀ n rest, s.port.notices = n :: rest →
       (s.port.noticePos + 1 < n.length →
         read { s.port with noticePos := s.port.noticePos + 1 } (n.getD s.port.noticePos 0)) ∧
       (n.length ≤ s.port.noticePos + 1 →
         read { s.port with notices := rest, noticePos := 0 } (n.getD s.port.noticePos 0)))

/-- R187, R107: in OFFLINE a data byte written to the configuration block takes effect at its write and is read back, and
an entry of the profile table takes a value when both its bytes are written in one transaction, most significant first, 0
held as 1 and 65535 as 65534, a second byte alone changing nothing; in every other state a byte is ignored and
LOCKED_WRITE is set. The crane record stays, whatever role is written (log 67, DESIGN CHOICE). R106: a byte of a profile parameter marks its class to be computed again at the release of select. -/
def Obligations.ConfigurationAndProfileWritten : Prop :=
  (∀ (addr : Nat) (v : Byte) (first : Opening) (s : State), s.attends first true addr → 0x0100 ≤ addr → addr ≤ 0x0141 →
     (s.mem.st = .offline → ∃ t, exec (.configurationBlockWrite addr v first) s = .next t ∧
       t.shown addr = v ∧ (∀ i < 66, i ≠ addr - 0x0100 → t.cfg[i]? = s.cfg[i]?) ∧
       (∀ k, k ∈ t.port.touched ↔ k ∈ s.port.touched ∨ (k < 4 ∧ ∃ parameter < 4,
         addr = 0x0118 + 8 * parameter + 2 * k ∨ addr = 0x0119 + 8 * parameter + 2 * k)) ∧
       t = { s with
         cfg := t.cfg
         port := { s.port with touched := t.port.touched, txn := s.txnAfter true addr, dataOut := 0 } }) ∧
     (s.mem.st ≠ .offline → exec (.configurationBlockWrite addr v first) s = .next
       { s with port := { s.port with locked := true, txn := s.txnAfter true addr, dataOut := 0 } })) ∧
  ((∀ (i : Nat) (hi lo : Byte) (first : Opening) (s : State), s.attends first true (0x1000 + 2 * i) →
     (∀ x, s.port.txn = some x → 0x1000 ≤ x.start ∧ x.start ≤ 0x11FF) → s.mem.st = .offline → i < 256 →
     ∃ t, exec (.profileTableWrite (0x1000 + 2 * i) hi first) s = .next t ∧ t.profile = s.profile ∧
       ∃ u, exec (.profileTableWrite (0x1001 + 2 * i) lo) t = .next u ∧
       u.profile.at i = max 1 (min 65534 (hi.toNat * 256 + lo.toNat)) ∧
       (∀ j, j ≠ i → u.profile.at j = s.profile.at j) ∧
       u = { s with profile := u.profile, port := { s.port with firstByte := none, txn := u.port.txn, dataOut := 0 } }) ∧
   (∀ (i : Nat) (lo : Byte) (first : Opening) (s : State), s.attends first true (0x1001 + 2 * i) → s.mem.st = .offline →
     i < 256 → s.port.firstByte = none → exec (.profileTableWrite (0x1001 + 2 * i) lo first) s = .next
       { s with port := { s.port with txn := s.txnAfter true (0x1001 + 2 * i), dataOut := 0 } }) ∧
   (∀ (addr : Nat) (v : Byte) (first : Opening) (s : State), s.attends first true addr → s.mem.st ≠ .offline →
     0x1000 ≤ addr → addr ≤ 0x11FF → exec (.profileTableWrite addr v first) s = .next
       { s with port := { s.port with locked := true, txn := s.txnAfter true addr, dataOut := 0 } }))

/-- R185: a byte written to any other address is ignored and sets no flag; and a byte read in the control and status region
shows the offsets R185 lists, the unlisted ones 0. R187, R105: in the configuration block it shows the byte as last
written, in the profile region an entry, most significant byte first; the request port reads as 0. An absent step id, donor or requester reads as 0
(log 63, DEDUCED). The read of an address that is no clear location is commanded by CLEAR_LOCATION_READ with that address, an operand that the row itself does not
have (log 36, DESIGN CHOICE). -/
def Obligations.WindowReadsAndIgnoredWrites : Prop :=
  (∀ (addr : Nat) (v : Byte) (first : Opening) (s : State), s.attends first true addr → hasWriteBehaviour addr = false →
    exec (.ignoredWrite addr v first) s = .next
      { s with port := { s.port with txn := s.txnAfter true addr, dataOut := 0 } }) ∧
  (∀ (addr : Nat) (first : Opening) (s : State), s.attends first false addr →
    addr < 0x30 ∨ (0x35 ≤ addr ∧ addr < 0x40) ∨ (0x0100 ≤ addr ∧ addr ≤ 0x0141) ∨ addr = 0x0200 ∨
      (0x1000 ≤ addr ∧ addr ≤ 0x11FF) →
    exec (.clearLocationRead addr first) s = .next
      { s with port := { s.port with txn := s.txnAfter false addr, dataOut := s.shown addr } }) ∧
  (∀ s : State,
    s.shown 0x00 = 0xA7 ∧ s.shown 0x01 = 1 ∧ s.shown 0x02 = b8 s.mem.st.code ∧ s.shown 0x03 = b8 s.mem.cause.code ∧
    s.shown 0x04 = b8 s.seqr.crane.state.code ∧ s.shown 0x05 = b8 s.seqr.crane.pos ∧
    s.shown 0x06 = b8 s.seqr.crane.level ∧ s.shown 0x07 = b8 (orZero s.seqr.crane.load / 256) ∧
    s.shown 0x08 = b8 (orZero s.seqr.crane.load) ∧ s.shown 0x09 = b8 s.seqr.crane.stall.code ∧
    (∀ st, s.seqr.crane.step = some st → s.shown 0x0A = b8 st.id ∧ s.shown 0x0B = b8 st.status.code) ∧
    (s.seqr.crane.step = none → s.shown 0x0A = 0 ∧ s.shown 0x0B = 0) ∧
    s.shown 0x0C = b8 s.port.requests.length ∧ s.shown 0x0D = b8 s.port.notices.length ∧
    s.shown 0x0E = b8 s.cfg.threshold ∧ s.shown 0x0F = rawInterrupts s.cfg s.port ∧ s.shown 0x10 = s.port.enable ∧
    s.shown 0x11 = rawInterrupts s.cfg s.port &&& s.port.enable ∧
    s.shown 0x12 = (if s.port.locked then 1 else 0) ∧ s.shown 0x13 = (if s.link.loss then 1 else 0) ∧
    s.shown 0x14 = b8 s.cons.mismatch ∧ s.shown 0x15 = b8 s.cons.phase.code ∧ s.shown 0x16 = b8 s.cons.tryNo ∧
    s.shown 0x17 = b8 (orZero s.cons.donor) ∧ s.shown 0x18 = b8 (orZero s.cons.serving) ∧
    s.shown 0x19 = b8 (s.cons.itemsApplied / 256) ∧ s.shown 0x1A = b8 s.cons.itemsApplied ∧
    s.shown 0x1B = b8 (s.cons.itemsSent / 256) ∧ s.shown 0x1C = b8 s.cons.itemsSent ∧
    s.shown 0x1D = b8 s.rep.jobs.length ∧ s.shown 0x1E = b8 (s.rep.signature.toNat / 16777216) ∧
    s.shown 0x1F = b8 (s.rep.signature.toNat / 65536) ∧ s.shown 0x20 = b8 (s.rep.signature.toNat / 256) ∧
    s.shown 0x21 = b8 s.rep.signature.toNat ∧ s.shown 0x22 = b8 ((s.mem.hash.getD 0).toNat / 256) ∧
    s.shown 0x23 = b8 (s.mem.hash.getD 0).toNat ∧ s.shown 0x24 = b8 s.link.ownSeq ∧
    s.shown 0x25 = b8 s.link.lastSender ∧ s.shown 0x26 = b8 (s.board.seqCounter / 256) ∧
    s.shown 0x27 = b8 s.board.seqCounter ∧ s.shown 0x28 = b8 s.board.offers.length ∧
    (∀ a, 0x29 ≤ a → a < 0x40 → s.shown a = 0) ∧ s.shown 0x0200 = 0 ∧
    (∀ i < 66, s.shown (0x0100 + i) = s.cfg[i]?.getD 0) ∧
    ∀ i < 256, s.shown (0x1000 + 2 * i) = b8 (s.profile.at i / 256) ∧ s.shown (0x1001 + 2 * i) = b8 (s.profile.at i))

/-- R195: a slot of a view is captured at its first byte read in a transaction, and every byte of it read in that
transaction is of that capture; and a slot shows its item in canonical bytes, with the fields R195 adds: the presence
fields of a station, the present byte of a dock or aisle, the asks of the own aisle in its slot (log 42, DESIGN CHOICE), a
run-list job with its marks in three places (log 43, DESIGN CHOICE), the pending awards in the order of their list (log
59, DESIGN CHOICE), and the board's entries by ascending id (log 55, DESIGN CHOICE), the bits of an entry's flags that R81 does not name 0 (log 9, DESIGN CHOICE); a slot with no
item shows 0. The reads are commanded as log 36 (DESIGN CHOICE) gives. -/
def Obligations.WindowViews : Prop :=
  (∀ (addr slot len : Nat) (first : Opening) (s : State), s.attends first false addr → slotOf addr = some (slot, len) →
    let read (bytes : List Byte) (captured : List (Nat × List Byte)) := exec (.clearLocationRead addr first) s = .next
      { s with port := { s.port with
          captured := captured, txn := s.txnAfter false addr, dataOut := bytes.getD (addr - slot) 0 } }
    (∀ bytes, findKey Prod.fst slot s.port.captured = some (slot, bytes) → read bytes s.port.captured) ∧
    (findKey Prod.fst slot s.port.captured = none →
      read (s.slotBytes slot) ((slot, s.slotBytes slot) :: s.port.captured))) ∧
  (∀ i k,
    (i < 31 → k < 16 → slotOf (0x0400 + 16 * i + k) = some (0x0400 + 16 * i, 16)) ∧
    (i < 16 → k < 8 → slotOf (0x0600 + 8 * i + k) = some (0x0600 + 8 * i, 8)) ∧
    (i < 8 → k < 32 → slotOf (0x0680 + 32 * i + k) = some (0x0680 + 32 * i, 32)) ∧
    (i < 4 → k < 16 → slotOf (0x0780 + 16 * i + k) = some (0x0780 + 16 * i, 16)) ∧
    (i < 4 → k < 4 → slotOf (0x07C0 + 4 * i + k) = some (0x07C0 + 4 * i, 4)) ∧
    (i < 64 → k < 32 → slotOf (0x0800 + 32 * i + k) = some (0x0800 + 32 * i, 32))) ∧
  (∀ (s : State) (i : Nat),
    (i < 31 → s.slotBytes (0x0400 + 16 * i) = match s.rep.station (i + 1) with
      | some x => [b8 x.number, b8 x.role.code, b8 x.aisle, b8 x.craneEnd.code, b8 x.docks.length] ++ x.docks.map b8 ++
          be16 x.backlog ++ [b8 x.runLength, b8 x.pos, b8 x.level, b8 x.craneState,
            b8 ((if x.draining then 1 else 0) + if x.syncing then 2 else 0)]
      | none => []) ∧
    (i < 16 → s.slotBytes (0x0600 + 8 * i) = match s.rep.dock i with
      | some d => [b8 d.number, b8 d.capacity, b8 d.free, b8 d.reserved, b8 d.occupied, b8 (d.server.getD 0), 1]
      | none => []) ∧
    (i < 8 → ∀ a, s.rep.aisle i = some a →
      let bytes := [b8 a.aisle, b8 a.form.code, b8 (a.low.getD 0), b8 (a.high.getD 0), b8 (a.sole.getD 0),
        b8 (a.boundary.getD 0), b8 a.state.code, 1]
      let own := s.cfg.isDispatch = false ∧ s.cfg.craneEnd.tandem = true ∧ a.aisle = s.cfg.aisle
      let asks := match s.bnd.ownAsk with
        | .none => [0, 0]
        | .sending v _ => [1, b8 v]
        | .waiting v _ => [2, b8 v]
      let partner := match s.bnd.partnerAsk with
        | .none => [0, 0]
        | .deferred v _ => [1, b8 v]
        | .granting v _ => [2, b8 v]
        | .held v _ => [3, b8 v]
      let answer := match s.bnd.answer with
        | .none => [0, 0, 0]
        | .grant v _ _ => [2, b8 v, 0]
        | .refuse v reason _ _ => [3, b8 v, b8 reason]
      let timer : Byte := match s.bnd.reAsk with
        | .running _ => 1
        | _ => 0
      (¬ own → s.slotBytes (0x0680 + 32 * i) = bytes) ∧
      (own → s.slotBytes (0x0680 + 32 * i) =
        bytes ++ asks ++ partner ++ answer ++ [timer] ++ be16 (s.bnd.lastWaited.getD 0))) ∧
    (i < 8 → s.rep.aisle i = none → s.slotBytes (0x0680 + 32 * i) = []) ∧
    (i < 4 → s.seqr.runList.length ≤ i → s.slotBytes (0x0780 + 16 * i) = []) ∧
    (i < 4 → ∀ r, s.seqr.runList[i]? = some r → r.marks.length ≤ 3 → ∃ rest, rest.length = 6 - 2 * r.marks.length ∧
      (∀ v ∈ rest, v = 0) ∧ s.slotBytes (0x0780 + 16 * i) =
        be16 r.id ++ [if r.urgent then 1 else 0, b8 r.phase.code] ++ be16 r.remaining ++
          [if r.loaded then 1 else 0, b8 r.loadClass, b8 r.marks.length] ++
          (r.marks.flatMap fun m => [b8 m.milestone, b8 m.detail]) ++ rest ++ [if r.finalSent then 1 else 0]) ∧
    (i < 4 → s.slotBytes (0x07C0 + 4 * i) = match s.seqr.awards[i]? with
      | some a => be16 a.job ++ [b8 a.mode.code, b8 a.attempt]
      | none => []) ∧
    (i < 64 → s.slotBytes (0x0800 + 32 * i) = match s.rep.jobs[i]? with
      | some e => be16 e.job.id ++ e.job.bytes ++
          [b8 e.state.code, b8 e.attempt, b8 (e.owner.getD 0), b8 e.reason,
            b8 (e.loadClass % 4 + (if e.loaded then 4 else 0) + 8 * (e.bids.length % 8))] ++
          e.bids.flatMap fun b => b8 b.bidder :: be16 b.cost
      | none => []))

/-- R184, R188, R191, R106, R107: select released: a partial record is torn, a part-read notice stays whole at the head, a
first profile byte is discarded, data out shows 0 from then on (log 62, DESIGN CHOICE), and in OFFLINE the classes whose
parameters were written are computed again. R194: a
reset, by pin or request, leaves every block at its reset values, makes a transaction in progress void, and gives no
notice; the pin holds it until it is released, and the interval timing counts from its end (R17). The reset values that no
rule states are log 5's (DESIGN CHOICE): the try 0, the byte on data out 0 after a RESET request too, no first profile
byte, no captured slot and no class touched. -/
def Obligations.SelectReleaseAndReset : Prop :=
  (∀ s : State, ∃ t, exec .selectRelease s = .next t ∧
    t = { s with
      profile := t.profile
      port := { s.port with
        txn := none, captured := [], firstByte := none, noticePos := 0, discard := false, asm := []
        touched := [], dataOut := 0, requestTorn := s.port.requestTorn || !s.port.asm.isEmpty } } ∧
    ∀ i < 256, t.profile.at i =
      if s.mem.st = .offline ∧ i / 64 ∈ s.port.touched then s.cfg.profileEntry (i / 64) (i % 64) else s.profile.at i) ∧
  (∀ s : State,
    let reset (held : Bool) : State := { State.reset with
      pending := s.pending, now := s.now, fresh := s.fresh, stamp := s.stamp, link := Link.cleared s.now
      port := { Port.cleared with txn := s.port.txn.map fun x => { x with void := true }, resetHeld := held } }
    exec .resetPin s = .next (reset true) ∧ ∀ r, s.requested 4 r → exec .resetRequest s = .next (reset false)) ∧
  (∀ s : State, s.port.resetHeld = true → exec .resetPinRelease s = .next
    { s with port := { s.port with resetHeld := false }, link := { s.link with intervalFrom := s.now } })

/-! ## Membership -/

/-- R40, R187: the JOIN request is judged in order: the state, the ranges of the configuration (those of the own role and
the common ones, the profile parameters of the classes among them; logs 33 and 65, DEDUCED), the crane state, the place of a
tandem crane. Accepted, the station enters LISTENING with its parameter hash and the listen timer of 4P; refused, it gives its code and changes no state. An accepted one
leaves no class touched: the entries of those whose parameters the open transaction wrote are computed at once from the
parameters (R106; log 17, DESIGN CHOICE), every other entry of the profile table staying. -/
def Obligations.JoinRequestTaken : Prop :=
  ∀ (s : State) (r : List Byte), s.requested 1 r →
    let c := s.cfg
    let within (lo hi n : Nat) := lo ≤ n ∧ n ≤ hi
    let common := within 1 31 c.number ∧ within 1 2 c.roleByte ∧ within 100 2000 c.pTime ∧ within 20 1000 c.wTime ∧
      within 1 60 c.qTime ∧ within 1 32 c.threshold ∧
      ∀ i < 4, within 1 65534 (c.word (0x18 + 2 * i)) ∧ c.word (0x20 + 2 * i) ≤ 65534 ∧
        within 1 65534 (c.word (0x28 + 2 * i)) ∧ c.word (0x30 + 2 * i) ≤ 65534
    let crane := c.aisle ≤ 7 ∧ within 1 3 (c.byte 0x03) ∧ within 1 3 c.rated ∧ (c.byte 0x03 ≠ 3 → within 1 14 c.home) ∧
      within 1 65534 c.pickTime ∧ within 1 65534 c.dropTime ∧ c.rearExtra ≤ 65534 ∧ within 1 60 c.margin ∧
      c.retryLimit ≤ 3 ∧ c.learn ≤ 1
    let dispatch := c.dockCount ≤ 4 ∧
      (∀ i < c.dockCount, c.byte (7 + 3 * i) ≤ 15 ∧ c.byte (8 + 3 * i) ≤ 4 ∧ c.byte (9 + 3 * i) ≤ c.byte (8 + 3 * i)) ∧
      ∀ j < c.dockCount, ∀ i < j, c.byte (7 + 3 * i) ≠ c.byte (7 + 3 * j)
    let sound := common ∧ (c.roleByte = 1 → crane) ∧ (c.roleByte = 2 → dispatch)
    let unhomed := c.roleByte = 1 ∧ s.seqr.crane.state = .unknown
    let misplaced := c.roleByte = 1 ∧
      ((c.byte 0x03 = 1 ∧ c.home ≤ s.seqr.crane.pos / 8) ∨ (c.byte 0x03 = 2 ∧ s.seqr.crane.pos / 8 ≤ c.home))
    (s.mem.st = .offline → sound → ¬ unhomed → ¬ misplaced → ∃ t, exec .joinRequest s = .next t ∧
      t.mem = { s.mem with
        st := .listening, cause := .none, heard := [], heardHash := [], founding := false
        listenTimer := .running (s.now + 4 * c.pTime)
        hash := some (crc16 (be16 c.pTime ++ be16 c.wTime ++ [b8 c.qTime])) } ∧
      t = { s with
        mem := t.mem, profile := t.profile
        port := ({ s.port with requests := s.port.requests.tail, touched := [], stateChange := true } : Port).give
          [4, 1, 1, 0] } ∧
      ∀ i < 256, t.profile.at i =
        if i / 64 ∈ s.port.touched then s.cfg.profileEntry (i / 64) (i % 64) else s.profile.at i) ∧
    (s.mem.st ≠ .offline → exec .joinRequest s = .next (s.popRequest.refuse 1 wrongState 0 0).markLeave) ∧
    (s.mem.st = .offline → ¬ sound → exec .joinRequest s = .next (s.popRequest.refuse 1 badConfig 0 0)) ∧
    (s.mem.st = .offline → sound → unhomed → exec .joinRequest s = .next (s.popRequest.refuse 1 wrongState 0 0)) ∧
    (s.mem.st = .offline → sound → ¬ unhomed → misplaced →
      exec .joinRequest s = .next (s.popRequest.refuse 1 badConfig 0 0))

/-- R52, R14, R102, R177: an accepted LEAVE request, and its refusal in any other state; R55: ACK_FAULT takes a FAULTED
station to OFFLINE, a leaving, and is refused in any other state; R53, R54: a LOST naming the station itself evicts it,
and its own LEAVE takes it to OFFLINE: a leaving each. The STATE notice goes before the REFUSED notices of the records
given up (log 14, DESIGN CHOICE), a step in flight stays as one with no job (log 38, DEDUCED), and the try is 0 afterwards
(log 5, DESIGN CHOICE). -/
def Obligations.LeavingsTaken : Prop :=
  (∀ (s : State) (r : List Byte), s.requested 2 r →
     (s.mem.st = .active → ∃ t, exec .leaveRequest s = .next t ∧ t.mem.st = .draining ∧ t.mem.leaveMark = true ∧
       t.board = { s.board with offers := s.board.offers.filter OfferItem.queued } ∧ t.allot = [] ∧
       t.cons.serving = none ∧ t.rep = s.rep ∧ t.seqr = s.seqr ∧ t.cfg = s.cfg ∧ t.profile = s.profile ∧
       t.bnd = s.bnd ∧ t.dockMarks = s.dockMarks ∧ t.link.rxq = s.link.rxq ∧ t.now = s.now ∧
       t.port = (((s.board.offers.filter fun o => !o.queued).map fun o =>
           [7, 8, 5, 2, 0, b8 (o.job.id / 256), b8 o.job.id]).foldl Port.give
         (({ s.port with requests := s.port.requests.tail, stateChange := true } : Port).give [4, 1, 4, 0]))) ∧
     (s.mem.st ≠ .active → exec .leaveRequest s = .next (s.popRequest.refuse 2 wrongState 0 0).markLeave)) ∧
  (∀ (s : State) (r : List Byte), s.requested 3 r →
     (s.mem.st = .faulted → ∃ t, exec .ackFault s = .next t ∧ s.leavesTo t .acknowledged) ∧
     (s.mem.st ≠ .faulted → exec .ackFault s = .next (s.popRequest.refuse 3 wrongState 0 0).markLeave)) ∧
  (∀ (s : State) (f : Frame), s.applies f →
     (f.kind = .lost → byteAt f.payload 0 = s.me → ∃ t, exec .applyLost s = .next t ∧ s.leavesTo t .evicted ∧
       (s.port.notices.length + 1 < 32 → ∃ more,
         t.port.notices = s.port.notices ++ [[3, 12, b8 f.sender], [4, 1, 0, 3]] ++ more)) ∧
     (f.kind = .leave → f.sender = s.me → ∃ t, exec .applyLeave s = .next t ∧ s.leavesTo t .left))

/-- R42: the judgement of the heard sets at the listen timer's expiry, the clock standing then at or past it (log 1,
DESIGN CHOICE); R43: a station in the founding wait judges its own JOIN. R41, R38: a LISTENING station records the sender
and the hash of a frame of another station and applies nothing; a FAULTED station discards a frame. R46, R121, R132: a
founder's tables hold its own item, its docks and its aisle record. -/
def Obligations.ListeningAndFounding : Prop :=
  (∀ (s : State) (e : Nat), s.awake → s.mem.st = .listening → s.mem.listenTimer = .running e →
     ((∃ p ∈ s.mem.heardHash, s.mem.hash ≠ some p.2) → ∃ t, exec .listenTimerExpiry s = .next t ∧
       t.mem.st = .faulted ∧ t.mem.cause = .paramMismatch ∧ t.mem.joinMark = false ∧ t.mem.listenTimer = .stopped ∧
       t.rep = s.rep ∧ t.cfg = s.cfg ∧ t.seqr.crane = s.seqr.crane) ∧
     ((∀ p ∈ s.mem.heardHash, s.mem.hash = some p.2) → s.mem.heard = [] →
       exec .listenTimerExpiry s = .next
         { s with now := max s.now e
                  mem := { s.mem with listenTimer := .expired, joinMark := true, founding := true } }) ∧
     ((∀ p ∈ s.mem.heardHash, s.mem.hash = some p.2) → s.mem.heard ≠ [] →
       ∃ t, exec .listenTimerExpiry s = .next t ∧ t.mem.st = .syncing ∧ t.mem.cause = .none ∧ t.mem.joinMark = true ∧
         t.rep = Replica.empty ∧ t.cons.candidates = s.mem.heard ∧ t.cons.donor = s.mem.heard.head? ∧
         t.cons.tryNo = 1 ∧ t.cons.phase = .none ∧ t.cfg = s.cfg ∧ t.seqr = s.seqr ∧ t.profile = s.profile)) ∧
  (∀ (s : State) (f : Frame) (rest : List Frame), s.awake → s.mem.st = .listening → s.mem.founding = true →
     s.link.rxq = f :: rest → f.sender = s.me → f.kind = .join →
     ((∃ p ∈ s.mem.heardHash, s.mem.hash ≠ some p.2) → ∃ t, exec .foundingJoin s = .next t ∧
       t.mem.st = .faulted ∧ t.mem.cause = .paramMismatch ∧ t.rep = s.rep) ∧
     ((∀ p ∈ s.mem.heardHash, s.mem.hash = some p.2) → s.mem.heard = [] → s.rep = Replica.empty →
       (Replica.empty.acceptsJoin s.mem.hash f.payload → ∃ t, exec .foundingJoin s = .next t ∧
         t.mem.st = .active ∧ t.mem.cause = .none ∧ t.rep.roster = [joinItem s.me f.payload] ∧ t.rep.jobs = [] ∧
         Replica.empty.entered t.rep s.me f.payload true ∧
         t.rep.signature = t.rep.sum ∧ t.cfg = s.cfg ∧ t.seqr = s.seqr) ∧
       (¬ Replica.empty.acceptsJoin s.mem.hash f.payload → ∃ t, exec .foundingJoin s = .next t ∧
         t.mem.st = .faulted ∧ t.mem.cause = .roleConflict ∧ t.rep = Replica.empty)) ∧
     ((∀ p ∈ s.mem.heardHash, s.mem.hash = some p.2) → s.mem.heard ≠ [] → ∃ t, exec .foundingJoin s = .next t ∧
       t.mem.st = .syncing ∧ t.rep = Replica.empty ∧ t.cons.candidates = s.mem.heard ∧
       t.cons.donor = s.mem.heard.head? ∧ t.cons.tryNo = 1 ∧ t.cfg = s.cfg ∧ t.seqr = s.seqr)) ∧
  (∀ (s : State) (f : Frame) (rest : List Frame), s.awake → s.link.rxq = f :: rest →
     (s.mem.st = .listening → f.sender ≠ s.me →
       ∃ t, exec .listenRecord s = .next t ∧
         t = { s with link := { s.link with rxq := rest }
                      mem := { s.mem with heard := t.mem.heard, heardHash := t.mem.heardHash } } ∧
         (s.mem.heard.length < 31 → ∀ n, n ∈ t.mem.heard ↔ n ∈ s.mem.heard ∨ n = f.sender) ∧
         (s.mem.heardHash.length < 31 → ∀ x, x ∈ t.mem.heardHash ↔ x ∈ s.mem.heardHash ∨
           (f.kind = .digest ∧ x = (f.sender, BitVec.ofNat 16 (wordAt f.payload 5))) ∨
           (f.kind = .join ∧ x = (f.sender, BitVec.ofNat 16 (wordAt f.payload 6))))) ∧
     (s.mem.st = .faulted → exec .faultedDiscard s = .next { s with link := { s.link with rxq := rest } }))

/-- R48: at the presence timer's expiry a DIGEST is offered as an optional frame, unless one is queued; a dropped one is
postponed, the timer standing expired; none is offered in LISTENING. R51: at the silence timer's expiry for a peer still
present a LOST mark naming it is set, at most one, and the timer stands expired. The clock stands then at or past the
expiry (log 1, DESIGN CHOICE). -/
def Obligations.PresenceAndSilenceExpire : Prop :=
  (∀ (s : State) (e : Nat), s.awake → s.mem.presence = .running e →
     let s' : State := { s with now := max s.now e, mem := { s.mem with presence := .expired } }
     (s.onLink = true → (∀ f ∈ s.link.txq, f.kind ≠ .digest) → s.link.txq.length < 12 →
       exec .presenceTimerExpiry s = .next (State.markLeave
         { s' with link := { s.link with txq := s.link.txq ++
           [{ kind := .digest, payload := [], sequence := none, fill := .digest }] } })) ∧
     (s.onLink = false ∨ (∃ f ∈ s.link.txq, f.kind = .digest) ∨ 12 ≤ s.link.txq.length →
       exec .presenceTimerExpiry s = .next s'.markLeave)) ∧
  (∀ (s : State) (n : Station) (e : Nat), s.awake → s.running = true →
     findKey Prod.fst n s.mem.silence = some (n, .running e) →
     ∃ t, exec (.silenceTimerExpiry n) s = .next t ∧
       findKey Prod.fst n t.mem.silence = some (n, .expired) ∧
       (∀ k, k ≠ n → findKey Prod.fst k t.mem.silence = findKey Prod.fst k s.mem.silence) ∧
       (s.rep.present n = true → n ∈ t.mem.lostMarks) ∧
       (∀ k, k ≠ n → (k ∈ t.mem.lostMarks ↔ k ∈ s.mem.lostMarks)) ∧
       (s.rep.present n = false → t.mem.lostMarks = s.mem.lostMarks) ∧
       (n ∈ s.mem.lostMarks → t.mem.lostMarks = s.mem.lostMarks) ∧
       t = { s with now := max s.now e
                    mem := { s.mem with silence := t.mem.silence, lostMarks := t.mem.lostMarks
                                        leaveFrame := t.mem.leaveFrame } })

/-- R45, R46, R121, R132: a JOIN applied. In ACTIVE or DRAINING, of a station not present: accepted, its item is added, its
silence timer started, a ROSTER notice given and its docks and aisle taken; rejected, nothing is added and the notice
gives the first reason that holds, and the role byte as carried (log 48, DESIGN CHOICE). R173: in SYNCING the JOIN of a
station whose item the replica lacks changes nothing. Of a station present, in each of the three states: its earlier
presence ends first, its jobs returned or stranded (in SYNCING as the partial board holds their predecessors; log 70,
DESIGN CHOICE), its docks and aisle given up, the asks with it void (R133; log 40, DEDUCED, for a partner known by an ask),
and a LOST mark for it cleared (log 47, DEDUCED); then it is judged against the tables that the ending left, and in SYNCING
no dock or aisle record is made (R128, R173). -/
def Obligations.JoinApplied : Prop :=
  (∀ (s : State) (f : Frame), s.applies f → f.kind = .join → s.running = true → s.rep.present f.sender = false →
     (s.rep.acceptsJoin s.mem.hash f.payload → ∃ t, exec .applyJoin s = .next t ∧
       t.rep.station f.sender = some (joinItem f.sender f.payload) ∧
       (∀ k, k ≠ f.sender → t.rep.station k = s.rep.station k) ∧ t.rep.jobs = s.rep.jobs ∧
       (f.sender ≠ s.me →
         findKey Prod.fst f.sender t.mem.silence = some (f.sender, .running (s.now + 3 * s.cfg.pTime))) ∧
       t.link.rxq = s.link.rxq.tail ∧ t.cfg = s.cfg ∧ t.mem.st = s.mem.st ∧ t.bnd = s.bnd ∧
       t.port = s.port.give [6, 2, 1, b8 f.sender, b8 (byteAt f.payload 0), 0] ∧
       s.rep.entered t.rep f.sender f.payload true) ∧
     (∀ reason, s.rep.firstRejects s.mem.hash f.payload reason → ∃ t, exec .applyJoin s = .next t ∧ t.rep = s.rep ∧
       t.link.rxq = s.link.rxq.tail ∧ t.cfg = s.cfg ∧ t.mem.st = s.mem.st ∧ t.bnd = s.bnd ∧
       t.port = s.port.give [6, 2, 5, b8 f.sender, b8 (byteAt f.payload 0), b8 reason])) ∧
  (∀ (s : State) (f : Frame), s.applies f → f.kind = .join → s.mem.st = .syncing → s.rep.present f.sender = false →
     ∃ t, exec .applyJoin s = .next t ∧ t.rep = s.rep ∧ t.port = s.port ∧ t.link.rxq = s.link.rxq.tail ∧ t.cfg = s.cfg ∧
       t.mem.st = s.mem.st ∧ t.bnd = s.bnd ∧ t.seqr = s.seqr ∧ t.cons = s.cons) ∧
  (∀ (s : State) (f : Frame) (x : StationItem), s.keyed → s.applies f → f.kind = .join →
     s.rep.station f.sender = some x →
     ∃ (t : State) (ended : Replica), exec .applyJoin s = .next t ∧ t.link.rxq = s.link.rxq.tail ∧
       t.cfg = s.cfg ∧ t.mem.st = s.mem.st ∧ (∀ k, k ∈ t.mem.lostMarks ↔ k ∈ s.mem.lostMarks ∧ k ≠ f.sender) ∧
       s.rep.orphaned t.rep f.sender ∧ s.asksVoided t f.sender ∧
       ended.roster = s.rep.roster.filter (fun y => y.number != f.sender) ∧
       s.rep.vacated ended f.sender ∧
       (∀ k, k ≠ f.sender → t.rep.station k = s.rep.station k) ∧
       (ended.acceptsJoin s.mem.hash f.payload → t.rep.station f.sender = some (joinItem f.sender f.payload) ∧
         ended.entered t.rep f.sender f.payload (decide (s.mem.st ≠ .syncing))) ∧
       (¬ ended.acceptsJoin s.mem.hash f.payload → t.rep.station f.sender = none ∧ t.rep.docks = ended.docks ∧
         t.rep.aisles = ended.aisles) ∧
       (s.port.notices.length < 32 → ∃ more,
         t.port.notices = s.port.notices ++ [6, 2, 2, b8 f.sender, b8 x.role.code, 0] :: more))

/-- R53, R54, R77, R127, R133: a LOST naming another present station, or a LEAVE of one: its item is removed, its jobs are
returned or stranded, its docks lose their server, its aisle record loses it, on its partner the asks between the two
are void (log 40, DEDUCED, for a partner known by an ask), and a ROSTER notice gives LOST or LEFT with its number and role,
the JOB notices after it. R173: so it is in SYNCING of a station whose item the replica holds, other than the donor (whose
loss fails the try, R180), its jobs then returned as the partial board holds their predecessors (log 70, DESIGN CHOICE); of
a station without an item nothing is removed and no notice given. A LOST mark held for a station that a LOST names is
cleared, whoever sent it (log 47, DEDUCED). -/
def Obligations.DepartureApplied : Prop :=
  ∀ (s : State) (f : Frame) (n : Station) (c : Instr), s.applies f → n ≠ s.me →
    (s.mem.st = .syncing → s.cons.donor ≠ some n) →
    ((f.kind = .lost ∧ byteAt f.payload 0 = n ∧ c = .applyLost) ∨
      (f.kind = .leave ∧ f.sender = n ∧ c = .applyLeave)) →
    ∃ t, exec c s = .next t ∧ t.link.rxq = s.link.rxq.tail ∧ t.mem.st = s.mem.st ∧ t.cfg = s.cfg ∧
      (c = .applyLost → ∀ k, k ∈ t.mem.lostMarks ↔ k ∈ s.mem.lostMarks ∧ k ≠ n) ∧
      (s.rep.station n = none → t.rep = s.rep ∧ t.port = s.port ∧ t.bnd = s.bnd) ∧
      ∀ x, s.rep.station n = some x →
        t.rep.station n = none ∧ (∀ k, k ≠ n → t.rep.station k = s.rep.station k) ∧
        findKey Prod.fst n t.mem.silence = none ∧ (n < 32 → t.link.seqTable[n]? = some none) ∧
        (s.keyed → s.rep.vacated t.rep n ∧ s.rep.orphaned t.rep n) ∧ s.asksVoided t n ∧
        (s.port.notices.length < 32 → ∃ more, t.port.notices = s.port.notices ++
          [6, 2, if c = .applyLost then 3 else 4, b8 n, b8 x.role.code, 0] :: more) ∧
        (32 ≤ s.port.notices.length → t.port.notices = s.port.notices ∧ t.port.noticeOverflow = true)

/-- R49, R170, R78, R171: a DIGEST of a present station applied: its presence fields are taken and the terminal entries that
its sender answers for retired; one of another station is compared in ACTIVE and DRAINING, unless it carries SYNCING, and
an own one is not. R173: in SYNCING one of a station whose item the replica holds does the same without a comparison, and
one of a station whose item it lacks does nothing. Its flags are DRAINING in bit 0 and SYNCING in bit 1 (log 8, DESIGN
CHOICE). -/
def Obligations.DigestApplied : Prop :=
  (∀ (s : State) (f : Frame), s.applies f → f.kind = .digest → s.rep.station f.sender = none →
    ∃ t, exec .applyDigest s = .next t ∧ t.rep = s.rep ∧ t.cons = s.cons ∧ t.link.loss = s.link.loss ∧ t.port = s.port ∧
      t.mem.st = s.mem.st ∧ t.seqr = s.seqr ∧ t.link.rxq = s.link.rxq.tail) ∧
  ∀ (s : State) (f : Frame) (x : StationItem), s.keyed → s.applies f → f.kind = .digest →
    s.rep.station f.sender = some x →
    let compared := s.running = true ∧ f.sender ≠ s.me ∧ (f.payload.getD 4 0).getLsbD 1 = false
    let equal := wideAt f.payload 0 = s.rep.signature
    (compared → ¬ equal → (s.link.loss = true ∨ s.cons.mismatch ≠ 0) →
      ∃ t, exec .applyDigest s = .next t ∧ t.mem.st = .syncing ∧ t.rep = Replica.empty ∧
        t.cons.candidates = (s.rep.roster.map StationItem.number).filter (fun n => n != s.me) ∧
        t.cons.donor = t.cons.candidates.head? ∧ t.cons.tryNo = 1 ∧ t.cons.mismatch = 0 ∧ t.cons.serving = none ∧
        t.allot = [] ∧ t.mem.silence = [] ∧ t.link.loss = s.link.loss ∧ t.seqr = s.seqr ∧ t.bnd = s.bnd ∧
        t.board = s.board ∧ t.dockMarks = s.dockMarks ∧ t.profile = s.profile ∧ t.cfg = s.cfg) ∧
    (¬ compared ∨ equal ∨ (s.link.loss = false ∧ s.cons.mismatch = 0) →
      ∃ t, exec .applyDigest s = .next t ∧ t.mem.st = s.mem.st ∧ t.cons.phase = s.cons.phase ∧
        t.cons.mismatch = (if compared then (if equal then 0 else 1) else s.cons.mismatch) ∧
        t.link.loss = (if compared ∧ equal then false else s.link.loss) ∧ t.port = s.port ∧
        t.rep.station f.sender = some { x with
          backlog := wordAt f.payload 8, runLength := byteAt f.payload 7, pos := byteAt f.payload 10
          level := byteAt f.payload 11, craneState := byteAt f.payload 12
          draining := (f.payload.getD 4 0).getLsbD 0, syncing := (f.payload.getD 4 0).getLsbD 1 } ∧
        (∀ k, k ≠ f.sender → t.rep.station k = s.rep.station k) ∧ t.rep.docks = s.rep.docks ∧
        t.rep.aisles = s.rep.aisles ∧
        (∀ k e, s.rep.entry k = some e → t.rep.entry k =
          if e.state.live = false ∧ (origin k = f.sender ∨
              (s.rep.present (origin k) = false ∧ s.rep.custodian k = some f.sender)) then none else some e))

/-! ## The Floor Link -/

/-- R16, R25: a head frame starts at the beginning of the station's own position when the line is idle (both given with
the command; log 3, DESIGN CHOICE), the station is neither OFFLINE nor FAULTED, the receive queue has a free place and,
for a DIGEST or a snapshot frame, is empty (R175; a SNAP_HEAD among them by log 68, DEDUCED), and no own LEAVE has completed
that is not yet applied (R52; log 58, DEDUCED); at its first start it takes the own sequence, which rises by 1 from 255 to
0. Otherwise nothing starts. R49, R83: the fields of a DIGEST are filled at its start from the state of that moment (its
flags by log 8, DESIGN CHOICE). R175, R177: so are a donor's frames: the SNAP_HEAD names the requester; a NEXT frame is a
SNAP_ITEM of the first item, in table order, without a sent mark, or with none a SNAP_END of the items sent and the
signature; a frame whose serve has ended is a SNAP_END of 65535. -/
def Obligations.FrameStarts : Prop :=
  (∀ (s : State) (f : TxFrame) (rest : List TxFrame) (position : Nat) (idle : Bool), s.awake → s.link.txq = f :: rest →
     let may := idle = true ∧ s.link.line = .free ∧ position = (s.me + 63 - s.link.lastSender) % 32 ∧
       s.mem.st ≠ .offline ∧ s.mem.st ≠ .faulted ∧ s.link.rxq.length < 16 ∧
       (f.fill = .digest ∨ (∃ n, f.fill = .snapHead n ∨ f.fill = .snapNext n ∨ f.fill = .snapEnded n) →
         s.link.rxq = []) ∧ (∀ g ∈ s.link.rxq, ¬ (g.sender = s.me ∧ g.kind = .leave))
     (may → ∃ t g, exec (.frameStart position idle) s = .next t ∧ t.link.line = .own ∧ t.link.txq = g :: rest ∧
       g.fill = f.fill ∧ (f.fill = .fixed → g.kind = f.kind ∧ g.payload = f.payload) ∧
       (f.sequence = none → g.sequence = some s.link.ownSeq ∧ t.link.ownSeq = (s.link.ownSeq + 1) % 256) ∧
       (∀ n, f.sequence = some n → g.sequence = some n ∧ t.link.ownSeq = s.link.ownSeq) ∧
       t.link.rxq = s.link.rxq ∧ t.link.lastSender = s.link.lastSender ∧ t.link.collisions = s.link.collisions ∧
       t.link.loss = s.link.loss ∧ t.link.seqTable = s.link.seqTable ∧ t.rep = s.rep ∧ t.seqr = s.seqr ∧
       t.cons = s.cons ∧ t.cfg = s.cfg ∧ t.port = s.port ∧ t.mem.st = s.mem.st ∧
       (∀ id, (∃ a, t.allotment id = some a ∧ a.ownBid = .sent) ↔
         ∃ a, s.allotment id = some a ∧ (a.ownBid = .sent ∨
           (a.ownBid = .queued ∧ g.kind = .bid ∧ wordAt g.payload 0 = id ∧ byteAt g.payload 2 = a.attempt)))) ∧
     (¬ may → exec (.frameStart position idle) s = .next s.markLeave)) ∧
  (∀ (s : State) (f : TxFrame) (rest : List TxFrame), s.awake → s.link.txq = f :: rest → f.fill = .digest →
     s.link.line = .free → s.mem.st ≠ .offline → s.mem.st ≠ .faulted → s.link.rxq = [] →
     ∃ t g, exec (.frameStart ((s.me + 63 - s.link.lastSender) % 32) true) s = .next t ∧ t.link.txq = g :: rest ∧
       g.payload.length = 13 ∧ wideAt g.payload 0 = s.rep.signature ∧
       ((g.payload.getD 4 0).getLsbD 1 = true ↔ s.mem.st = .syncing) ∧
       ((g.payload.getD 4 0).getLsbD 0 = true ↔ s.mem.st = .draining ∨ (s.mem.st = .syncing ∧ s.mem.leaveMark = true)) ∧
       (∀ h, s.mem.hash = some h → wordAt g.payload 5 = h.toNat) ∧
       (s.cfg.isDispatch = true → (∀ i, 7 ≤ i → byteAt g.payload i = 0)) ∧
       (s.cfg.isDispatch = false →
         byteAt g.payload 7 = s.seqr.runList.length % 256 ∧
         wordAt g.payload 8 = min 65535 ((s.seqr.runList.map RunJob.remaining).sum) ∧
         byteAt g.payload 10 = s.seqr.crane.pos % 256 ∧ byteAt g.payload 11 = s.seqr.crane.level % 256 ∧
         byteAt g.payload 12 = s.seqr.crane.state.code)) ∧
  (∀ (s : State) (f : TxFrame) (rest : List TxFrame), s.awake → s.link.txq = f :: rest → s.link.line = .free →
     s.mem.st ≠ .offline → s.mem.st ≠ .faulted → s.link.rxq = [] →
     let filled (kind : FrameKind) (payload : List Byte) := ∃ t g,
       exec (.frameStart ((s.me + 63 - s.link.lastSender) % 32) true) s = .next t ∧ t.link.txq = g :: rest ∧
       g.kind = kind ∧ g.payload = payload
     ∀ n,
       (f.fill = .snapHead n → filled .snapHead [b8 n]) ∧
       (f.fill = .snapNext n → ∀ before i others, s.rep.items = before ++ i :: others →
         (∀ x ∈ before, x.key ∈ s.cons.sent) → i.key ∉ s.cons.sent → filled .snapItem (b8 n :: i.contents)) ∧
       (f.fill = .snapNext n → (∀ x ∈ s.rep.items, x.key ∈ s.cons.sent) →
         filled .snapEnd (b8 n :: (be16 s.cons.itemsSent ++ be32 s.rep.signature))) ∧
       (f.fill = .snapEnded n → filled .snapEnd (b8 n :: (be16 65535 ++ be32 s.rep.signature))))

/-- R19, R20, R35, R36: a collision of the own frame keeps it at the head with its sequence and counts it; the third takes
the station to FAULTED with cause DUPLICATE; in FAULTED the frame is not tried again, nor is one that was on the line at a
leaving. The count is 0 once that frame is given up (log 39, DESIGN CHOICE). -/
def Obligations.CollisionCounted : Prop :=
  ∀ s : State, s.awake →
    (s.link.line = .own → s.mem.st ≠ .faulted → s.mem.st ≠ .offline → s.link.collisions < 2 → exec .collision s = .next
      { s with link := { s.link with line := .free, collisions := s.link.collisions + 1 } }.markLeave) ∧
    (s.link.line = .own → s.mem.st ≠ .faulted → s.mem.st ≠ .offline → 2 ≤ s.link.collisions →
      ∃ t, exec .collision s = .next t ∧
      t.mem.st = .faulted ∧ t.mem.cause = .duplicate ∧ t.link.txq = [] ∧ t.link.line = .free ∧
      t.link.rxq = s.link.rxq ∧ t.link.lastSender = s.link.lastSender ∧ t.link.loss = s.link.loss ∧
      t.link.seqTable = s.link.seqTable ∧ t.link.ownSeq = s.link.ownSeq ∧ t.rep = s.rep ∧ t.board.offers = [] ∧
      t.board.marks = [] ∧ t.allot = [] ∧ t.seqr.awards = [] ∧ t.seqr.crane = s.seqr.crane ∧ t.cfg = s.cfg ∧
      t.profile = s.profile) ∧
    (s.link.line = .own → s.mem.st = .faulted → exec .collision s = .next
      { s with link := { s.link with line := .free, txq := [], collisions := 0 } }) ∧
    (∀ n, s.link.line = .departed n → exec .collision s = .next
      { s with link := { s.link with line := .free } }.markLeave)

/-- R29, R36, R48, R172: the completion of an own frame: it leaves the transmit queue, its loopback copy enters the
receive queue, the last sender is the station's own number, and the presence timer restarts; a frame that was on the line
at a leaving ends with the number it was sent under. R42, R172: at the completion of a joiner's JOIN its first SYNC_ASK is
offered, an optional frame that starts the snapshot timer when it is dropped. R175: after a SNAP_HEAD or a SNAP_ITEM the
snapshot mark is NEXT, at the SNAP_ITEM's the item it carried has its sent mark set, and a SNAP_END ends the serve, no sent
mark left. -/
def Obligations.FrameCompletes : Prop :=
  (∀ (s : State) (f : TxFrame) (rest : List TxFrame), s.awake → s.link.line = .own → s.link.txq = f :: rest →
    ∃ t more, exec .frameComplete s = .next t ∧ t.link.txq = rest ++ more ∧ t.link.line = .free ∧
      t.link.collisions = 0 ∧ t.link.lastSender = s.me ∧ t.link.intervalFrom = s.now ∧
      t.link.rxq = s.link.rxq ++
        [{ sender := s.me, kind := f.kind, sequence := f.sequence.getD 0, payload := f.payload }] ∧
      t.link.seqTable = s.link.seqTable ∧ t.link.ownSeq = s.link.ownSeq ∧ t.link.loss = s.link.loss ∧
      t.rep = s.rep ∧ t.seqr.runList = s.seqr.runList ∧ t.seqr.crane = s.seqr.crane ∧ t.cfg = s.cfg ∧
      t.port = s.port ∧ t.board = s.board ∧ t.bnd = s.bnd ∧
      (s.mem.st ≠ .offline → s.mem.st ≠ .faulted → t.mem.presence = .running (s.now + s.cfg.pTime)) ∧
      (f.fill = .ask s.cons.tryNo → s.mem.st = .syncing → s.cons.phase = .asking →
        t.cons.phase = .asked ∧ t.cons.snapTimer = .running (s.now + 4 * s.cfg.pTime)) ∧
      (f.kind = .join → s.mem.st = .syncing → s.cons.phase = .none →
        t.cons.phase = .asking ∧ t.cons.tryNo = s.cons.tryNo ∧ t.cons.donor = s.cons.donor ∧
        (rest.length < 12 → t.cons.snapTimer = .stopped ∧ t.link.txq = rest ++
          [{ kind := .syncAsk, payload := [b8 (orZero s.cons.donor)], sequence := none, fill := .ask s.cons.tryNo }]) ∧
        (12 ≤ rest.length → t.cons.snapTimer = .running (s.now + 4 * s.cfg.pTime) ∧ t.link.txq = rest)) ∧
      (∀ n, f.fill = .snapHead n → t.cons.mark = .next ∧ t.cons.serving = s.cons.serving ∧
        t.cons.itemsSent = s.cons.itemsSent) ∧
      (∀ n, f.fill = .snapNext n → f.kind = .snapItem →
        t.cons.mark = .next ∧ t.cons.serving = s.cons.serving ∧
        t.cons.itemsSent = min 65534 (s.cons.itemsSent + 1) ∧
        ∀ i : Item, f.payload = b8 n :: i.contents →
          (match i.key with
            | .station k | .dock k | .aisle k => k < 256
            | .job id => id < 65536) →
          ∀ k, k ∈ t.cons.sent ↔ k = i.key ∨ k ∈ s.cons.sent) ∧
      (∀ n, f.fill = .snapNext n → f.kind = .snapEnd →
        t.cons.mark = .none ∧ t.cons.serving = none ∧ t.cons.sent = [])) ∧
  (∀ (s : State) (n : Station), s.awake → s.link.line = .departed n → exec .frameComplete s = .next
    { s with link := { s.link with line := .free, lastSender := n, intervalFrom := s.now } }.markLeave)

/-- R18, R30–R34, R51: a frame of another station that ends on the line. The last sender becomes its sender byte, that of
a damaged frame only in 1–31; the byte of a whole frame above 31 is not taken (log 12, DEDUCED). -/
def Obligations.FrameReceived : Prop :=
  ∀ (s : State) (bytes : List Byte), s.awake → s.link.line = .free →
    let sender := byteAt bytes 0
    let last := if sender ≤ 31 ∧ (damaged bytes = true → 1 ≤ sender) then sender else s.link.lastSender
    let ended := { s with link := { s.link with lastSender := last, intervalFrom := s.now } }
    (s.mem.st = .offline → exec (.frameReceive bytes) s = .next ended) ∧
    (s.mem.st ≠ .offline → damaged bytes = true ∨ readFrame bytes = none →
      exec (.frameReceive bytes) s = .next { ended with link := { ended.link with loss := true } }.markLeave) ∧
    (∀ f, s.mem.st ≠ .offline → damaged bytes = false → readFrame bytes = some f →
      (f.sender = s.me → s.mem.st ≠ .faulted → ∃ t, exec (.frameReceive bytes) s = .next t ∧
        t.mem.st = .faulted ∧ t.mem.cause = .duplicate ∧ t.link.rxq = s.link.rxq ∧ t.link.loss = s.link.loss ∧
        t.link.seqTable = s.link.seqTable ∧ t.rep = s.rep) ∧
      (f.sender = s.me → s.mem.st = .faulted → exec (.frameReceive bytes) s = .next ended) ∧
      (f.sender ≠ s.me → 16 ≤ s.link.rxq.length →
        exec (.frameReceive bytes) s = .next { ended with link := { ended.link with loss := true } }.markLeave) ∧
      (f.sender ≠ s.me → s.link.rxq.length < 16 → ∃ t, exec (.frameReceive bytes) s = .next t ∧
        t.link.rxq = s.link.rxq ++ [f] ∧ t.link.lastSender = f.sender ∧ t.link.intervalFrom = s.now ∧
        t.link.seqTable[f.sender]? = some (some f.sequence) ∧
        (∀ k, k ≠ f.sender → t.link.seqTable[k]? = s.link.seqTable[k]?) ∧
        (t.link.loss = true ↔ s.link.loss = true ∨
          ∃ n, s.link.seqTable[f.sender]? = some (some n) ∧ f.sequence ≠ (n + 1) % 256) ∧
        (∀ k, k ∈ t.mem.lostMarks ↔ k ∈ s.mem.lostMarks ∧ k ≠ f.sender) ∧
        (∀ g ∈ t.link.txq, g.kind = .lost → byteAt g.payload 0 = f.sender → g.sequence.isSome = true) ∧
        (∀ g ∈ s.link.txq, g.kind ≠ .lost → g ∈ t.link.txq) ∧
        t.rep = s.rep ∧ t.seqr = s.seqr ∧ t.cons = s.cons ∧ t.port = s.port ∧ t.cfg = s.cfg ∧ t.mem.st = s.mem.st))

/-- R27: with a free place a waiting mark is turned into one obligatory frame at the tail, not yet started; with none,
or with no mark, nothing changes. A JOIN mark goes first, its frame carrying the configuration and the crane's
position (R44), then a LEAVE mark, then the LOST of the lowest peer; then
the milestone set first; then the Boundary Unit's ASK and answer, the older first, and a RESOLVE mark; then a DOCK
mark; then a CANCEL or RESOLVE mark; then the oldest custodial mark, a RE_OFFER or an EXHAUST; then the OFFER of the
first Offer List record whose OFFER is not queued; and last the snapshot mark while no snapshot frame is queued: each
frame with its payload, the mark gone. -/
def Obligations.MarkBecomesFrame : Prop :=
  ∀ s : State, s.awake →
    let makes (kind : FrameKind) (payload : List Byte) (post : State → Prop) := ∃ t f, exec .markToFrame s = .next t ∧
      t.link.txq = s.link.txq ++ [f] ∧ f.kind = kind ∧ f.payload = payload ∧ post t
    (s.nextMark = none ∨ 16 ≤ s.link.txq.length → exec .markToFrame s = .next s.markLeave) ∧
    (s.link.txq.length < 16 →
      (∀ m, s.nextMark = some m → ∃ t f, exec .markToFrame s = .next t ∧ t.link.txq = s.link.txq ++ [f] ∧
        f.sequence = none ∧ f.kind.optional = false ∧ t.link.rxq = s.link.rxq ∧ t.rep = s.rep ∧ t.cfg = s.cfg ∧
        t.port = s.port ∧ t.seqr.crane = s.seqr.crane ∧ t.seqr.awards = s.seqr.awards) ∧
      (s.mem.joinMark = true → s.mem.st ≠ .offline → s.mem.st ≠ .faulted →
        let hash := be16 ((s.mem.hash.getD 0).toNat)
        let c := s.cfg
        (c.isDispatch = false → makes .join ([1, b8 c.aisle, b8 c.craneEnd.code, b8 s.seqr.crane.pos,
          b8 s.seqr.crane.level, if c.craneEnd = .low ∨ c.craneEnd = .high then b8 c.home else 0] ++ hash ++ [0])
          fun t => t.mem.joinMark = false) ∧
        (c.isDispatch = true → ∃ docks, docks.length = 3 * min 4 c.dockCount ∧
          (∀ i < docks.length, docks[i]? = some (b8 (c.byte (7 + i)))) ∧
          makes .join ([2, 0, 0, 0, 0, 0] ++ hash ++ [b8 (min 4 c.dockCount)] ++ docks)
            fun t => t.mem.joinMark = false)) ∧
      (s.onLink = true → s.mem.joinMark = false → s.mem.leaveFrame = .marked →
        makes .leave [] fun t => t.mem.leaveFrame = .queued) ∧
      (∀ n, s.onLink = true → s.mem.joinMark = false → s.mem.leaveFrame ≠ .marked → n ∈ s.mem.lostMarks →
        (∀ k ∈ s.mem.lostMarks, n ≤ k) → makes .lost [b8 n] fun t => n ∉ t.mem.lostMarks) ∧
      (∀ r k, s.onLink = true → s.memberMark = none → r ∈ s.seqr.runList → k ∈ r.marks →
        (∀ r' ∈ s.seqr.runList, ∀ k' ∈ r'.marks, k'.stamp ≤ k.stamp → r' = r ∧ k' = k) →
        makes .progress (be16 r.id ++ [b8 k.milestone, b8 k.detail]) fun t =>
          ∀ y ∈ t.seqr.runList, y.id = r.id → ∀ x ∈ y.marks, x.milestone ≠ k.milestone) ∧
      (s.running = true → s.memberMark = none → s.milestoneMark = none →
        let asks (n : Nat) := s.bnd.askMark = some n ∧ ∃ v p, s.bnd.ownAsk = .sending v p
        (∀ v p n, s.bnd.ownAsk = .sending v p → s.bnd.askMark = some n →
          (∀ w q k, s.bnd.answer = .grant w q k → n ≤ k) → (∀ w x q k, s.bnd.answer = .refuse w x q k → n ≤ k) →
          makes .boundary [b8 s.cfg.aisle, 1, b8 v, 0] fun t => t.bnd = { s.bnd with askMark := none }) ∧
        (∀ v p n, s.bnd.answer = .grant v p n → (∀ k, asks k → n < k) →
          makes .boundary [b8 s.cfg.aisle, 2, b8 v, 0] fun t => t.bnd = { s.bnd with answer := .none }) ∧
        (∀ v reason p n, s.bnd.answer = .refuse v reason p n → (∀ k, asks k → n < k) →
          makes .boundary [b8 s.cfg.aisle, 3, b8 v, b8 reason] fun t => t.bnd = { s.bnd with answer := .none }) ∧
        (∀ a b more, s.bnd.answer = .none → (∀ k, ¬ asks k) → s.bnd.resolveMarks = (a, b) :: more →
          makes .resolve [2, b8 a, b8 b] fun t => t.bnd = { s.bnd with resolveMarks := more })) ∧
      (s.running = true → s.memberMark = none → s.milestoneMark = none → s.boundaryMark = none →
        (∀ n count more, s.dockMarks = (n, count) :: more →
          makes .dock [b8 n, b8 count] fun t => t.dockMarks = more) ∧
        (∀ id more, s.dockMarks = [] → s.board.marks = .cancel id :: more →
          makes .cancel (be16 id) fun t => t.board.marks = more) ∧
        (∀ id outcome more, s.dockMarks = [] → s.board.marks = .resolve id outcome :: more →
          makes .resolve (1 :: (be16 id ++ [b8 outcome])) fun t => t.board.marks = more) ∧
        (s.dockMarks = [] → s.board.marks = [] →
          let older (n : Nat) (a : AllotRecord) := ∀ x ∈ s.allot, x ≠ a →
            (∀ k m, x.mark = .reOffer k m false → n < m) ∧ (∀ m, x.mark = .exhaust m false → n < m)
          (∀ a e k n, s.keyed → s.allotment a.job = some a → a.mark = .reOffer k n false → s.rep.entry a.job = some e →
            older n a → makes .offer (e.job.offer k) fun t =>
              t.allotment a.job = some { a with mark := .reOffer k n true }) ∧
          (∀ a n, s.keyed → s.allotment a.job = some a → a.mark = .exhaust n false → older n a →
            makes .progress (be16 a.job ++ [4, 4]) fun t => t.allotment a.job = some { a with mark := .exhaust n true }) ∧
          (∀ pre o more, s.mem.st = .active → s.custodyMark = none → s.board.offers = pre ++ o :: more →
            (∀ x ∈ pre, x.queued = true) → o.queued = false →
            makes .offer (o.job.offer 1) fun t =>
              (∃ pre' rest, t.board.offers = pre' ++ { o with queued := true } :: rest ∧
                pre'.length = pre.length ∧ rest.length = more.length) ∧
              ((∀ x ∈ pre ++ more, x.job.id ≠ o.job.id) →
                t.board.offers = pre ++ { o with queued := true } :: more)) ∧
          (∀ n, s.custodyMark = none → (s.mem.st = .active → ∀ o ∈ s.board.offers, o.queued = true) →
            (∀ g ∈ s.link.txq, g.fill.snapshot = false) → s.cons.serving = some n →
            (s.cons.mark = .head → makes .snapHead [b8 n] fun t => t.cons = { s.cons with mark := .none }) ∧
            (s.cons.mark = .next → ∃ t, exec .markToFrame s = .next t ∧ t.cons = { s.cons with mark := .none } ∧
              t.link.txq = s.link.txq ++ [{ kind := .snapItem, payload := [], sequence := none, fill := .snapNext n }])))))

/-! ## The Job Board -/

/-- R10–R13: a SUBMIT: accepted, its record with the allocated id joins the Offer List and a JOB SUBMITTED notice is
given; refused for the role, the state or the first wrong field in the order of R11, or kept at the head while the Offer
List is full. The id is formed from the first candidate, from the sequence counter on, that neither the board nor the
Offer List holds (R12). The reserved bits of the forms are carried 0 (log 31, DEDUCED). -/
def Obligations.SubmitTaken : Prop :=
  ∀ (s : State) (r : List Byte), s.requested 5 r →
    (s.cfg.isDispatch = false → exec .submit s = .next (s.popRequest.refuse 5 wrongRole 0 0).markLeave) ∧
    (s.cfg.isDispatch = true → s.mem.st ≠ .active →
      exec .submit s = .next (s.popRequest.refuse 5 wrongState 0 0).markLeave) ∧
    (s.cfg.isDispatch = true → s.mem.st = .active → 4 ≤ s.board.offers.length → exec .submit s = .next s) ∧
    (s.cfg.isDispatch = true → s.mem.st = .active → s.board.offers.length < 4 →
      let number (n : Nat) := s.me * 2048 + (s.board.seqCounter + n) % 2048
      let taken (n : Nat) := (s.rep.entry (number n)).isSome = true ∨ ∃ o ∈ s.board.offers, o.job.id = number n
      ∀ n < 2048, s.board.seqCounter < 2048 → (∀ m < n, taken m) → ¬ taken n →
      let id := number n
      let kind := byteAt r 2
      let bad (dock : Prop) (form : Byte) (pos level : Nat) :=
        (dock ∧ (form.getLsbD 0 = false ∨ (pos ≠ 0 ∧ pos ≠ 127) ∨ level ≠ 0 ∨ form.getLsbD 1 = true ∨
          form.getLsbD 2 = true)) ∨
        (¬ dock ∧ (form.getLsbD 0 = true ∨ pos < 1 ∨ 126 < pos ∨ 31 < level))
      let src := r.getD 4 0
      let dst := r.getD 7 0
      let wrong (i : Nat) : Prop := match i with
        | 0 => r.length ≠ 14
        | 1 => kind < 1 ∨ 3 < kind
        | 2 => 7 < byteAt r 3
        | 3 => bad (kind = 1) src (byteAt r 5) (byteAt r 6)
        | 4 => bad (kind = 2) dst (byteAt r 8) (byteAt r 9) ∨ (kind = 3 ∧ src.getLsbD 1 = dst.getLsbD 1 ∧
            byteAt r 5 = byteAt r 8 ∧ byteAt r 6 = byteAt r 9)
        | 5 => byteAt r 10 < 1 ∨ 3 < byteAt r 10
        | 6 => 1 < byteAt r 11
        | _ => (1 ≤ wordAt r 12 ∧ wordAt r 12 ≤ 2047) ∨ wordAt r 12 = id
      (∀ i ≤ 7, wrong i → (∀ k < i, ¬ wrong k) → exec .submit s = .next (s.popRequest.refuse 5 badField i 0)) ∧
      ((∀ i ≤ 7, ¬ wrong i) → exec .submit s = .next
        { s with
          board := { s.board with
            offers := s.board.offers ++ [{ queued := false, job := {
              id := id, kind := kind, aisle := byteAt r 3, srcForm := src &&& 7, srcPos := byteAt r 5
              srcLevel := byteAt r 6, dstForm := dst &&& 7, dstPos := byteAt r 8, dstLevel := byteAt r 9
              classPrio := b8 (byteAt r 10 + 128 * byteAt r 11), pred := wordAt r 12 } }]
            seqCounter := (id + 1) % 2048 }
          port := ({ s.port with requests := s.port.requests.tail } : Port).give
            [7, 3, b8 (id / 256), b8 id, 0, 0, 0] }))

/-- R71: a CANCEL request on an ACTIVE dispatch station is judged by where the id stands. R75: a RESOLVE_JOB request,
R125: a FREE_DOCK request and R145: a RESOLVE_AISLE request are each judged in order; one accepted sets its mark at the
tail of its list, a RESOLVE in place of one held for its job or aisle (at the tail by log 23, DESIGN CHOICE), the other
marks staying in their order (R72). While the
list holds 128 marks (R72), or four DOCK marks are held (R125), the request stays at the head, in every state and on every
role (log 44, DEDUCED). -/
def Obligations.MarkRequestsTaken : Prop :=
  (∀ (s : State) (r : List Byte), s.requested 6 r → s.board.marks.length < 128 →
     let id := wordAt r 2
     let unqueued := ∃ o ∈ s.board.offers, o.job.id = id ∧ o.queued = false
     let queued := ∃ o ∈ s.board.offers, o.job.id = id ∧ o.queued = true
     (s.cfg.isDispatch = false → exec .cancelRequest s = .next (s.popRequest.refuse 6 wrongRole 0 0).markLeave) ∧
     (s.cfg.isDispatch = true → s.mem.st ≠ .active →
       exec .cancelRequest s = .next (s.popRequest.refuse 6 wrongState 0 0).markLeave) ∧
     (s.cfg.isDispatch = true → s.mem.st = .active →
       (queued → exec .cancelRequest s = .next s) ∧
       (¬ queued → unqueued → exec .cancelRequest s = .next
         { s with
           board := { s.board with offers := s.board.offers.filter fun o => o.job.id != id }
           port := ({ s.port with requests := s.port.requests.tail } : Port).give
             [7, 3, b8 (id / 256), b8 id, 8, 0, 10] }) ∧
       (¬ queued → ¬ unqueued → (s.rep.entry id).isSome = true → .cancel id ∉ s.board.marks →
         exec .cancelRequest s = .next
           { s with board := { s.board with marks := s.board.marks ++ [.cancel id] }
                    port := { s.port with requests := s.port.requests.tail } }) ∧
       (¬ queued → ¬ unqueued → (s.rep.entry id).isSome = true → .cancel id ∈ s.board.marks →
         exec .cancelRequest s = .next s.popRequest) ∧
       (¬ queued → ¬ unqueued → s.rep.entry id = none →
         exec .cancelRequest s = .next (s.popRequest.refuse 6 noSuchJob 0 0)))) ∧
  ((∀ (s : State) (r : List Byte), s.requested 8 r → s.board.marks.length < 128 →
     let id := wordAt r 2
     let stranded := ∃ e, s.rep.entry id = some e ∧ e.state = .stranded
     (s.cfg.isDispatch = false → exec .resolveJob s = .next (s.popRequest.refuse 8 wrongRole 0 0).markLeave) ∧
     (s.cfg.isDispatch = true → s.mem.st ≠ .active →
       exec .resolveJob s = .next (s.popRequest.refuse 8 wrongState 0 0).markLeave) ∧
     (s.cfg.isDispatch = true → s.mem.st = .active →
       (byteAt r 4 ≠ 1 ∧ byteAt r 4 ≠ 2 → exec .resolveJob s = .next (s.popRequest.refuse 8 badField 1 0)) ∧
       (byteAt r 4 = 1 ∨ byteAt r 4 = 2 → ¬ stranded →
         exec .resolveJob s = .next (s.popRequest.refuse 8 noSuchJob 0 0)) ∧
       (byteAt r 4 = 1 ∨ byteAt r 4 = 2 → stranded → exec .resolveJob s = .next
         { s with board := { s.board with
                    marks := (s.board.marks.filter fun m => !m.resolves id) ++ [.resolve id (byteAt r 4)] }
                  port := { s.port with requests := s.port.requests.tail } }))) ∧
   (∀ (id : JobId) (m : BoardMark), m.resolves id = true ↔ ∃ o, m = .resolve id o) ∧
   (∀ (s : State) (r : List Byte), 128 ≤ s.board.marks.length →
     (s.requested 6 r → exec .cancelRequest s = .next s.markLeave) ∧
     (s.requested 8 r → exec .resolveJob s = .next s.markLeave))) ∧
  (∀ (s : State) (r : List Byte), s.requested 7 r →
     (4 ≤ s.dockMarks.length → exec .freeDock s = .next s.markLeave) ∧
     (s.dockMarks.length < 4 →
       let served := ∃ d, s.rep.dock (byteAt r 2) = some d ∧ d.server = some s.me
       (s.cfg.isDispatch = false → exec .freeDock s = .next (s.popRequest.refuse 7 wrongRole 0 0).markLeave) ∧
       (s.cfg.isDispatch = true → s.running = false →
         exec .freeDock s = .next (s.popRequest.refuse 7 wrongState 0 0)) ∧
       (s.cfg.isDispatch = true → s.running = true →
         (15 < byteAt r 2 → exec .freeDock s = .next (s.popRequest.refuse 7 badField 0 0).markLeave) ∧
         (byteAt r 2 ≤ 15 → ¬ (1 ≤ byteAt r 3 ∧ byteAt r 3 ≤ 4) →
           exec .freeDock s = .next (s.popRequest.refuse 7 badField 1 0).markLeave) ∧
         (byteAt r 2 ≤ 15 → 1 ≤ byteAt r 3 → byteAt r 3 ≤ 4 → ¬ served →
           exec .freeDock s = .next (s.popRequest.refuse 7 badField 0 0).markLeave) ∧
         (byteAt r 2 ≤ 15 → 1 ≤ byteAt r 3 → byteAt r 3 ≤ 4 → served →
           exec .freeDock s = .next
             { s.popRequest with dockMarks := s.dockMarks ++ [(byteAt r 2, byteAt r 3)] }.markLeave)))) ∧
  (∀ (s : State) (r : List Byte), s.requested 9 r →
     let aisle := byteAt r 2
     let v := byteAt r 3
     let frozen (a : AisleRecord) := aisle ≤ 7 ∧ s.rep.aisle aisle = some a ∧ a.form = .tandem ∧ a.state = .frozen
     let moves (a : AisleRecord) := 1 ≤ v ∧ v ≤ 14 ∧
       ((orZero a.boundary < v ∧ a.high = none) ∨ (v < orZero a.boundary ∧ a.low = none))
     (s.cfg.isDispatch = false → exec .resolveAisle s = .next (s.popRequest.refuse 9 wrongRole 0 0).markLeave) ∧
     (s.cfg.isDispatch = true → s.mem.st ≠ .active →
       exec .resolveAisle s = .next (s.popRequest.refuse 9 wrongState 0 0).markLeave) ∧
     (s.cfg.isDispatch = true → s.mem.st = .active →
       ((∀ a, ¬ frozen a) → exec .resolveAisle s = .next (s.popRequest.refuse 9 badField 0 0)) ∧
       (∀ a, frozen a → ¬ moves a → exec .resolveAisle s = .next (s.popRequest.refuse 9 badField 1 0)) ∧
       (∀ a, frozen a → moves a → exec .resolveAisle s = .next
         { s.popRequest with bnd := { s.bnd with
             resolveMarks := (s.bnd.resolveMarks.filter fun p => p.1 != aisle) ++ [(aisle, v)] } })))

/-- R62–R64: an OFFER applied in ACTIVE or DRAINING: a first OFFER makes an entry in the first state of R63 that applies, is
refused at its sender on a full board, and has no effect from another station or with another attempt; one for an OPEN
entry at a lower attempt raises it; no other entry changes, but for the dependents of an entry that enters FAILED, which
fail in turn (R66), a claimed RETRIEVE among them returning its place (R124). R173: in SYNCING one for a job that the replica lacks is
ignored, and one for a job that it holds is a re-offer as before. R13: at the application of its own first OFFER, attempt 1,
a queued record leaves the Offer List; an own OFFER of another attempt, a re-offer (R100), takes none out. -/
def Obligations.OfferApplied : Prop :=
  (∀ (s : State) (f : Frame), s.applies f → f.kind = .offer → s.running = true →
     let j := offeredJob f.payload
     let attempt := byteAt f.payload 2
     let dependents := ∃ x ∈ s.rep.jobs, x.job.pred = j.id ∧ x.dependent
     ∃ t, exec .applyOffer s = .next t ∧ t.rep.roster = s.rep.roster ∧ t.rep.aisles = s.rep.aisles ∧
       (¬ dependents → s.rep.sameTables t.rep ∧ s.rep.sameEntries t.rep j.id) ∧
       (∀ e, s.rep.entry j.id = some e → t.port = s.port ∧ s.rep.sameTables t.rep ∧ s.rep.sameEntries t.rep j.id ∧
         t.rep.entry j.id =
           some (if e.state = .opened ∧ e.attempt < attempt then { e with attempt := attempt, bids := [] } else e)) ∧
       (s.rep.entry j.id = none →
         (f.sender ≠ origin j.id ∨ attempt ≠ 1 → t.rep = s.rep ∧ t.port = s.port) ∧
         (f.sender = origin j.id → attempt = 1 → 64 ≤ s.rep.jobs.length → t.rep = s.rep ∧
           t.port = if f.sender = s.me then s.port.give [7, 8, 5, 6, 0, b8 (j.id / 256), b8 j.id] else s.port) ∧
         (f.sender = origin j.id → attempt = 1 → s.rep.jobs.length < 64 → ∃ e, t.rep.entry j.id = some e ∧
           e.job = j ∧ e.owner = none ∧ e.loaded = false ∧ e.loadClass = j.weight ∧ e.bids = [] ∧
           (e.state ≠ .failed ∨ ¬ dependents → t.port = s.reported e none) ∧
           (e.state ≠ .failed → s.rep.sameTables t.rep ∧ s.rep.sameEntries t.rep j.id) ∧
           (s.keyed → e.state = .failed → s.rep.cascades t.rep j.id ∧ ∀ n d, s.rep.dock n = some d →
             let returned := (s.rep.jobs.filter fun x => x.job.isRetrieve && x.job.dockNumber == n &&
               decide (t.rep.entry x.id ≠ some x) && x.state == .awarded).length
             t.rep.dock n = some { d with
               free := d.free + min d.reserved returned, reserved := d.reserved - min d.reserved returned }) ∧
           let busy := ∃ x ∈ s.rep.jobs, x.state.live = true ∧ x.id ≠ j.pred ∧ j.conflicts x.job = true
           let far := ∃ a, s.rep.aisle j.aisle = some a ∧ a.form = .tandem ∧ j.reachableTandem = false
           let before := s.rep.entry j.pred
           (busy → e.state = .rejected ∧ e.reason = 1 ∧ e.attempt = 0) ∧
           (¬ busy → far → e.state = .rejected ∧ e.reason = 2 ∧ e.attempt = 0) ∧
           (¬ busy → ¬ far → ∀ p, before = some p →
             (p.state.live = true → e.state = .held ∧ e.reason = 0 ∧ e.attempt = 0) ∧
             (p.state = .done → e.state = .opened ∧ e.reason = 0 ∧ e.attempt = 1) ∧
             (p.state = .failed ∨ p.state = .cancelled ∨ p.state = .rejected →
               e.state = .failed ∧ e.reason = 3 ∧ e.attempt = 0)) ∧
           (¬ busy → ¬ far → before = none → e.state = .opened ∧ e.reason = 0 ∧ e.attempt = 1)))) ∧
  (∀ (s : State) (f : Frame), s.applies f → f.kind = .offer → s.mem.st = .syncing →
     let id := wordAt f.payload 0
     let attempt := byteAt f.payload 2
     ∃ t, exec .applyOffer s = .next t ∧ t.mem.st = s.mem.st ∧ t.port = s.port ∧ t.link.rxq = s.link.rxq.tail ∧
       (s.rep.entry id = none → t.rep = s.rep) ∧
       ∀ e, s.rep.entry id = some e → s.rep.sameTables t.rep ∧ s.rep.sameEntries t.rep id ∧ t.rep.entry id =
         some (if e.state = .opened ∧ e.attempt < attempt then { e with attempt := attempt, bids := [] } else e)) ∧
  (∀ (s : State) (f : Frame), s.applies f → f.kind = .offer → f.sender = s.me →
     ∃ t, exec .applyOffer s = .next t ∧ t.board.marks = s.board.marks ∧ t.board.seqCounter = s.board.seqCounter ∧
       t.board.offers = if byteAt f.payload 2 = 1 then
           s.board.offers.filter fun o => !(o.queued && o.job.id == wordAt f.payload 0)
         else s.board.offers)

/-- R67, R68, R79, R124: the owner's STARTED, PICKED, STRANDED and RELEASED: the entry changes when its state is the one
required, the change of state is reported, a released RETRIEVE returns its place, and nothing else of the replica changes.
R67: a PROGRESS other than EXHAUSTED of a station that does not own the entry, or that names none, changes neither the
replica nor the port. -/
def Obligations.OwnersMilestones : Prop :=
  (∀ (s : State) (f : Frame) (e : JobEntry), s.applies f → f.kind = .progress →
     s.rep.entry (wordAt f.payload 0) = some e → e.owner = some f.sender →
     (byteAt f.payload 2 = 1 → ∃ t, exec .applyProgressStarted s = .next t ∧ s.rep.sameTables t.rep ∧
       s.rep.sameEntries t.rep e.id ∧
       (e.state = .awarded → t.rep.entry e.id = some { e with state := .active, bids := [] } ∧
         t.port = s.reported { e with state := .active, bids := [] } e.owner) ∧
       (e.state ≠ .awarded → t.rep = s.rep ∧ t.port = s.port)) ∧
     (byteAt f.payload 2 = 2 → ∃ t, exec .applyProgressPicked s = .next t ∧ s.rep.sameTables t.rep ∧
       s.rep.sameEntries t.rep e.id ∧ t.port = s.port ∧
       (e.state = .active → t.rep.entry e.id = some { e with
         loaded := true
         loadClass := if 1 ≤ byteAt f.payload 3 ∧ byteAt f.payload 3 ≤ 3 then byteAt f.payload 3 else e.loadClass }) ∧
       (e.state ≠ .active → t.rep = s.rep)) ∧
     (byteAt f.payload 2 = 5 → ∃ t, exec .applyProgressStranded s = .next t ∧ s.rep.sameTables t.rep ∧
       s.rep.sameEntries t.rep e.id ∧
       (e.state = .active → t.rep.entry e.id = some { e with state := .stranded, bids := [] } ∧
         t.port = s.reported { e with state := .stranded, bids := [] } e.owner) ∧
       (e.state ≠ .active → t.rep = s.rep ∧ t.port = s.port))) ∧
  (∀ (s : State) (f : Frame) (e : JobEntry), s.applies f → f.kind = .progress → byteAt f.payload 2 = 6 →
     s.rep.entry (wordAt f.payload 0) = some e → e.owner = some f.sender →
     (e.state = .awarded ∨ (e.state = .active ∧ e.loaded = false) →
       ∃ t st, exec .applyProgressReleased s = .next t ∧ t.rep.roster = s.rep.roster ∧ t.rep.aisles = s.rep.aisles ∧
         s.rep.sameEntries t.rep e.id ∧ (st = .held ∨ st = .opened) ∧ (st = .held ↔ s.rep.predLive e.job = true) ∧
         t.rep.entry e.id = some { e with state := st, owner := none, bids := [], reason := 0 } ∧
         t.port = s.reported { e with state := st, owner := none, bids := [], reason := 0 } e.owner ∧
         (∀ n, t.rep.dock n = if e.job.kind = 2 ∧ n = e.job.dockNumber then
             (s.rep.dock n).map fun d =>
               if 1 ≤ d.reserved then { d with reserved := d.reserved - 1, free := d.free + 1 } else d
           else s.rep.dock n)) ∧
     (e.state ≠ .awarded → ¬ (e.state = .active ∧ e.loaded = false) →
       ∃ t, exec .applyProgressReleased s = .next t ∧ t.rep = s.rep ∧ t.port = s.port)) ∧
  (∀ (s : State) (f : Frame) (c : Instr), s.applies f → f.kind = .progress →
     (∀ e, s.rep.entry (wordAt f.payload 0) = some e → e.owner ≠ some f.sender) →
     (byteAt f.payload 2 = 1 ∧ c = .applyProgressStarted) ∨ (byteAt f.payload 2 = 2 ∧ c = .applyProgressPicked) ∨
       (byteAt f.payload 2 = 3 ∧ c = .applyProgressDone) ∨
       (byteAt f.payload 2 = 4 ∧ byteAt f.payload 3 ≠ 4 ∧ c = .applyProgressFailed) ∨
       (byteAt f.payload 2 = 5 ∧ c = .applyProgressStranded) ∨ (byteAt f.payload 2 = 6 ∧ c = .applyProgressReleased) →
     ∃ t, exec c s = .next t ∧ t.rep = s.rep ∧ t.port = s.port)

/-- R68, R65, R123: DONE from the owner of an ACTIVE entry, and R76: a RESOLVE JOB with outcome DONE of a STRANDED one:
the entry is DONE, its HELD successors are OPEN, and the place of a RETRIEVE is settled. DONE from the owner of an entry in
another state has no effect, nor has a RESOLVE JOB of a station that is no dispatch station, of an entry that is not
STRANDED or absent, or with another outcome: its sender of role DISPATCH is told NO_SUCH_JOB at its own application, but
for an entry absent in SYNCING (log 27, DEDUCED). -/
def Obligations.DoneApplied : Prop :=
  (∀ (s : State) (f : Frame) (e : JobEntry) (c : Instr), s.keyed → s.applies f → s.rep.entry e.id = some e →
    ((f.kind = .progress ∧ byteAt f.payload 2 = 3 ∧ wordAt f.payload 0 = e.id ∧ e.owner = some f.sender ∧
        e.state = .active ∧ c = .applyProgressDone) ∨
      (f.kind = .resolve ∧ f.payload.length = 4 ∧ byteAt f.payload 0 = 1 ∧ wordAt f.payload 1 = e.id ∧
        byteAt f.payload 3 = 1 ∧ s.rep.presentAs f.sender .dispatch = true ∧ e.state = .stranded ∧
        c = .applyResolveJob)) →
    ∃ t, exec c s = .next t ∧ t.rep.roster = s.rep.roster ∧ t.rep.aisles = s.rep.aisles ∧
      t.rep.entry e.id = some { e with state := .done, owner := none, bids := [], reason := 0 } ∧
      (∀ k x, k ≠ e.id → s.rep.entry k = some x → t.rep.entry k = some
        (if x.job.pred = e.id ∧ x.state = .held then
          { x with state := .opened, attempt := if x.attempt = 0 then 1 else x.attempt }
        else x)) ∧
      (∀ n, t.rep.dock n = if e.job.kind = 2 ∧ n = e.job.dockNumber then
          (s.rep.dock n).map fun d =>
            if 1 ≤ d.reserved then { d with reserved := d.reserved - 1, occupied := d.occupied + 1 } else d
        else s.rep.dock n)) ∧
  (∀ (s : State) (f : Frame) (e : JobEntry), s.applies f → f.kind = .progress → byteAt f.payload 2 = 3 →
    s.rep.entry (wordAt f.payload 0) = some e → e.owner = some f.sender → e.state ≠ .active →
    ∃ t, exec .applyProgressDone s = .next t ∧ t.rep = s.rep ∧ t.port = s.port) ∧
  (∀ (s : State) (f : Frame), s.applies f → f.kind = .resolve → f.payload.length = 4 → byteAt f.payload 0 = 1 →
    let id := wordAt f.payload 1
    let settles := (byteAt f.payload 3 = 1 ∨ byteAt f.payload 3 = 2) ∧
      ∃ e, s.rep.entry id = some e ∧ e.state = .stranded
    (s.rep.presentAs f.sender .dispatch = false →
      ∃ t, exec .applyResolveJob s = .next t ∧ t.rep = s.rep ∧ t.port = s.port) ∧
    (s.rep.presentAs f.sender .dispatch = true → ¬ settles → ∃ t, exec .applyResolveJob s = .next t ∧ t.rep = s.rep ∧
      t.port = if f.sender = s.me ∧ (s.mem.st = .syncing → (s.rep.entry id).isSome = true) then
          s.port.give [7, 8, 8, 4, 0, b8 (id / 256), b8 id]
        else s.port))

/-- R68, R66: FAILED with a detail of 6–9 from the owner of an entry not yet loaded; R70: EXHAUSTED from the custodian of
an OPEN entry; R74: a CANCEL of a dispatch station for a HELD, OPEN or AWARDED entry; R76: a RESOLVE JOB with outcome
FAILED of a STRANDED one: the entry takes its terminal state and reason, and the entries that depend on it fail in turn.
A FAILED of the owner with another detail or of another entry, and an EXHAUSTED otherwise, have no effect; nor has a CANCEL
of a crane station, or one that comes late, of which a dispatch station is told with the state found at its own
application, but for an entry absent in SYNCING (log 27, DEDUCED). R166, R151: a CANCEL that takes effect on a job of the
own run list takes it out, and withdraws its STARTED where that has not started. -/
def Obligations.FailureApplied : Prop :=
  (∀ (s : State) (f : Frame) (e : JobEntry) (c : Instr) (st : JobState) (reason : Nat), s.keyed → s.applies f →
    s.rep.entry e.id = some e →
    ((f.kind = .progress ∧ byteAt f.payload 2 = 4 ∧ wordAt f.payload 0 = e.id ∧ e.owner = some f.sender ∧
        (e.state = .awarded ∨ (e.state = .active ∧ e.loaded = false)) ∧ 6 ≤ byteAt f.payload 3 ∧
        byteAt f.payload 3 ≤ 9 ∧ st = .failed ∧ reason = byteAt f.payload 3 ∧ c = .applyProgressFailed) ∨
      (f.kind = .progress ∧ byteAt f.payload 2 = 4 ∧ byteAt f.payload 3 = 4 ∧ wordAt f.payload 0 = e.id ∧
        s.rep.custodian e.id = some f.sender ∧ e.state = .opened ∧ st = .failed ∧ reason = 4 ∧
        c = .applyProgressExhausted) ∨
      (f.kind = .cancel ∧ wordAt f.payload 0 = e.id ∧ s.rep.presentAs f.sender .dispatch = true ∧
        (e.state = .held ∨ e.state = .opened ∨ e.state = .awarded) ∧ st = .cancelled ∧ reason = 10 ∧
        c = .applyCancel) ∨
      (f.kind = .resolve ∧ f.payload.length = 4 ∧ byteAt f.payload 0 = 1 ∧ wordAt f.payload 1 = e.id ∧
        byteAt f.payload 3 = 2 ∧ s.rep.presentAs f.sender .dispatch = true ∧ e.state = .stranded ∧ st = .failed ∧
        reason = 5 ∧ c = .applyResolveJob)) →
    ∃ t, exec c s = .next t ∧ t.rep.roster = s.rep.roster ∧ t.rep.aisles = s.rep.aisles ∧
      s.rep.failed t.rep e st reason ∧
      (∀ n d, s.rep.dock n = some d →
        let returned := (s.rep.jobs.filter fun x =>
          x.job.isRetrieve && x.job.dockNumber == n && decide (t.rep.entry x.id ≠ some x) &&
            (x.state == .awarded || (x.id == e.id && x.state.owned))).length
        t.rep.dock n = some { d with
          free := d.free + min d.reserved returned, reserved := d.reserved - min d.reserved returned })) ∧
  (∀ (s : State) (f : Frame), s.applies f → f.kind = .progress → byteAt f.payload 2 = 4 →
    let found (p : JobEntry → Prop) := ∃ e, s.rep.entry (wordAt f.payload 0) = some e ∧ p e
    (byteAt f.payload 3 ≠ 4 → found (fun e => e.owner = some f.sender ∧ ((byteAt f.payload 3 < 6 ∨ 9 < byteAt f.payload 3) ∨
        (e.state ≠ .awarded ∧ ¬ (e.state = .active ∧ e.loaded = false)))) →
      ∃ t, exec .applyProgressFailed s = .next t ∧ t.rep = s.rep ∧ t.port = s.port) ∧
    (byteAt f.payload 3 = 4 → ¬ found (fun e => e.state = .opened ∧ s.rep.custodian e.id = some f.sender) →
      ∃ t, exec .applyProgressExhausted s = .next t ∧ t.rep = s.rep ∧ t.port = s.port)) ∧
  (∀ (s : State) (f : Frame), s.applies f → f.kind = .cancel →
    let id := wordAt f.payload 0
    (s.rep.presentAs f.sender .dispatch = false →
      ∃ t, exec .applyCancel s = .next t ∧ t.rep = s.rep ∧ t.port = s.port) ∧
    (s.rep.presentAs f.sender .dispatch = true →
      (∀ e, s.rep.entry id = some e → e.state ≠ .held ∧ e.state ≠ .opened ∧ e.state ≠ .awarded) →
      ∃ t, exec .applyCancel s = .next t ∧ t.rep = s.rep ∧
        t.port = if f.sender = s.me ∧ (s.mem.st = .syncing → (s.rep.entry id).isSome = true) then
            s.port.give [5, 13, b8 (id / 256), b8 id, b8 (((s.rep.entry id).map fun e => e.state.code).getD 0)]
          else s.port) ∧
    (∀ e, s.keyed → s.rep.presentAs f.sender .dispatch = true → s.rep.entry id = some e → e.state = .awarded →
      e.owner = some s.me → (∃ x ∈ s.seqr.runList, x.id = id) →
      let started (g : TxFrame) := g.kind = .progress ∧ wordAt g.payload 0 = id ∧ byteAt g.payload 2 = 1 ∧
        g.sequence = none
      ∃ t, exec .applyCancel s = .next t ∧ (∀ y ∈ t.seqr.runList, y.id ≠ id) ∧ (∀ g ∈ t.link.txq, ¬ started g) ∧
        (∀ g ∈ s.link.txq, ¬ started g → g.kind ≠ .bid → g ∈ t.link.txq) ∧
        (∀ st, s.seqr.crane.step = some st → t.seqr.crane.step =
          some (if st.job = some id then { st with job := none } else st))))

/-! ## Bidding and award -/

/-- R90: a BID that meets every condition enters the entry's list after the bids of at most its cost and before the dearer
ones, the last bid giving way when four are held; any other BID has no effect. -/
def Obligations.BidApplied : Prop :=
  ∀ (s : State) (f : Frame), s.applies f → f.kind = .bid →
    let id := wordAt f.payload 0
    let b : Bid := { bidder := f.sender, cost := wordAt f.payload 3 }
    ∃ t, exec .applyBid s = .next t ∧ s.rep.sameTables t.rep ∧ s.rep.sameEntries t.rep id ∧ t.port = s.port ∧
      (s.rep.entry id = none → t.rep = s.rep) ∧
      ∀ e, s.rep.entry id = some e →
        let meets := s.rep.presentAs f.sender .crane = true ∧ e.state = .opened ∧ e.attempt = byteAt f.payload 2 ∧
          ∀ x ∈ e.bids, x.bidder ≠ f.sender
        let kept := if e.bids.length < 4 then e.bids else e.bids.dropLast
        (¬ meets → t.rep = s.rep) ∧
        (meets → 4 ≤ e.bids.length → (∀ x ∈ e.bids, x.cost ≤ b.cost) → t.rep.entry id = some e) ∧
        (meets → (e.bids.length < 4 ∨ ∃ x ∈ e.bids, b.cost < x.cost) →
          e.bids.Pairwise (fun x y => x.cost ≤ y.cost) →
          t.rep.entry id = some { e with
            bids := kept.filter (fun x => x.cost ≤ b.cost) ++ b :: kept.filter (fun x => b.cost < x.cost) })

/-- R93, R96, R122, R94, R149: an AWARD whose conditions hold makes the entry AWARDED to its sender, takes a dock place
for a RETRIEVE and enters the sender's run list; one that fails a condition, or names no entry, changes nothing but the
sender's pending award, which ends at its own application, that of its job, attempt and mode (log 41, DEDUCED); the CHAIN
AWARDs offered in the same application (R95) follow the kept ones (log 59, DESIGN CHOICE). On the partial table of a
SYNCING station a dock record that is lacking does not count (log 50, DEDUCED), and a predecessor that is lacking makes a
CHAIN AWARD void (log 70, DESIGN CHOICE). The job enters WAITING, not loaded, in the
class of its entry, at the place its priority and predecessor give; while the crane is MANUAL or OUT_OF_SERVICE it is
released at once. R150: after an application of the board's frames the head is not WAITING behind a live predecessor that
is not ahead of it, and a WAITING job that such an application turns FINISHING has taken RELEASED for that reason. -/
def Obligations.AwardApplied : Prop :=
  (∀ (s : State) (f : Frame) (mode : Nat) (c : Instr), s.applies f → f.kind = .award → byteAt f.payload 5 = mode →
    (mode = 1 ∧ c = .applyAwardBid) ∨ (mode = 2 ∧ c = .applyAwardChain) →
    let own (a : PendingAward) : Bool := f.sender == s.me && a.job == wordAt f.payload 0 &&
      a.attempt == byteAt f.payload 2 && a.mode.code == mode
    let entered (t : State) := ∃ y ∈ t.seqr.runList, ∀ x ∈ s.seqr.runList, x.id ≠ y.id
    ∃ t, exec c s = .next t ∧ t.rep.roster = s.rep.roster ∧ t.rep.aisles = s.rep.aisles ∧
      (∃ more, t.seqr.awards = s.seqr.awards.filter (fun a => !own a) ++ more ∧
        (s.mem.st ≠ .active → more = []) ∧
        ∀ a ∈ more, a.mode = .chain ∧ a.attempt = 0 ∧ ∃ e, t.rep.entry a.job = some e ∧ e.state = .held) ∧
      (s.rep.entry (wordAt f.payload 0) = none → t.rep = s.rep ∧ t.port = s.port ∧ ¬ entered t) ∧
      ∀ e, s.rep.entry (wordAt f.payload 0) = some e →
        let dock := e.job.kind = 2 → (∃ d, s.rep.dock e.job.dockNumber = some d ∧ 0 < d.free) ∨
          (s.mem.st = .syncing ∧ s.rep.dock e.job.dockNumber = none)
        let accepted := s.rep.presentAs f.sender .crane = true ∧ e.attempt = byteAt f.payload 2 ∧ dock ∧
          (mode = 1 → e.state = .opened) ∧
          (mode = 2 → e.state = .held ∧ e.attempt = 0 ∧ ∃ p, s.rep.entry e.job.pred = some p ∧
            (p.state = .awarded ∨ p.state = .active) ∧ p.owner = some f.sender)
        s.rep.sameEntries t.rep e.id ∧
        (accepted →
          t.rep.entry e.id = some { e with state := .awarded, owner := some f.sender, bids := [] } ∧
          t.port = s.reported { e with state := .awarded, owner := some f.sender, bids := [] } (some f.sender) ∧
          (∀ n, t.rep.dock n = if e.job.kind = 2 ∧ n = e.job.dockNumber then
            (s.rep.dock n).map fun d => { d with free := d.free - 1, reserved := d.reserved + 1 } else s.rep.dock n) ∧
          (f.sender = s.me → ∃ r ∈ t.seqr.runList, r.id = e.id) ∧ (f.sender ≠ s.me → ¬ entered t)) ∧
        (accepted → f.sender = s.me → (∀ x ∈ s.seqr.runList, x.id ≠ e.id) →
          (∀ x ∈ s.seqr.runList, ∃ k, s.rep.entry x.id = some k ∧ k.runBy s.me = true) →
          let withdrawn := s.seqr.crane.state = .manual ∨ s.seqr.crane.state = .outOfService
          ∃ pre post pre' y post', s.seqr.runList = pre ++ post ∧ pre.length = insertPlace s.seqr.runList e.job ∧
            t.seqr.runList = pre' ++ y :: post' ∧ pre'.map RunJob.id = pre.map RunJob.id ∧
            post'.map RunJob.id = post.map RunJob.id ∧ y.id = e.id ∧ y.urgent = e.job.urgent ∧ y.loaded = false ∧
            y.loadClass = e.loadClass ∧
            (withdrawn → y.phase = .finishing ∧ y.finalSent = true ∧
              ∃ n, y.marks = [{ milestone := 6, detail := 0, stamp := n }]) ∧
            (¬ withdrawn → s.rep.predLive e.job = false ∨ (∃ x ∈ s.seqr.runList, x.id = e.job.pred) →
              y.phase = .waiting ∧ y.finalSent = false ∧ y.marks = [])) ∧
        (¬ accepted → t.rep = s.rep ∧ t.port = s.port ∧ ¬ entered t)) ∧
  (∀ (s t : State) (f : Frame) (c : Instr), s.applies f → exec c s = .next t → t.link.rxq = s.link.rxq.tail →
    c ∈ [.applyOffer, .applyAwardBid, .applyAwardChain, .applyProgressDone, .applyProgressFailed,
      .applyProgressStranded, .applyProgressReleased, .applyProgressExhausted, .applyCancel, .applyResolveJob] →
    t.headJudged ∧
    ∀ x ∈ s.seqr.runList, x.phase = .waiting → x.finalSent = false → (∀ z ∈ s.seqr.runList, z.id = x.id → z = x) →
      ∀ y ∈ t.seqr.runList, y.id = x.id → (∀ z ∈ t.seqr.runList, z.id = y.id → z = y) →
      y.phase = .waiting ∨ (x.setsFinal y 6 0 ∧ ∃ e, t.rep.entry x.id = some e ∧ t.rep.predLive e.job = true))

/-- R85, R86, R87, R89, R97, R99, R101: the allotment records of a station that stays ACTIVE follow its board. An entry
newly OPEN, or at a new attempt, has a record with its window running for W, and the station's own BID with its cost
queued when the station is eligible and the queue has room; an entry that became OPEN at its attempt has a record without
a window and, at its custodian, with the custodial mark; at a change of custodian the timer of a closed record starts or
stops; and an entry that is not OPEN has no record. -/
def Obligations.AllotmentFollowsBoard : Prop :=
  ∀ (s t : State) (c : Instr), s.keyed → s.allotted → s.quiet → s.mem.st = .active → t.mem.st = .active → exec c s = .next t →
    let mine (r : Replica) (k : JobId) := r.custodian k = some s.me
    let timer (e : JobEntry) : CustodialTimer :=
      if e.bids = [] then .reofferWait (t.now + 1000 * t.cfg.qTime) else .awardTimeout (t.now + 2 * t.cfg.wTime)
    (∀ k, (∀ e, t.rep.entry k = some e → e.state ≠ .opened) → t.allotment k = none) ∧
    ∀ k e, t.rep.entry k = some e → e.state = .opened →
      let suits := t.cfg.isDispatch = false ∧ (t.seqr.crane.state = .idle ∨ t.seqr.crane.state = .stepping) ∧
        e.job.aisle = t.cfg.aisle ∧ e.job.fits t.cfg.craneEnd = true ∧ e.job.within t.cfg.craneEnd = true ∧
        e.loadClass ≤ t.cfg.rated ∧
        (e.job.kind = 2 → ∃ d, t.rep.dock e.job.dockNumber = some d ∧ 0 < d.free) ∧
        (t.crosses e.job = true → ∃ a, t.rep.aisle t.cfg.aisle = some a ∧ a.form = .tandem ∧ a.state = .set)
      let started (a : AllotRecord) := t.allotment k = some a ∧ a.attempt = e.attempt ∧
        a.window = .running (t.now + t.cfg.wTime) ∧ a.timer = .none ∧ a.mark = .none ∧ a.ownBid ≠ .sent ∧
        (a.ownBid = .queued → suits ∧ t.seqr.runList.length < 4 ∧ (⟨.bid,
          be16 k ++ [b8 e.attempt] ++ be16 (t.cost e), none, .fixed⟩ : TxFrame) ∈ t.link.txq) ∧
        (suits → t.seqr.runList.length + t.seqr.awards.length < 4 → t.link.txq.length < 12 → a.ownBid = .queued)
      (s.rep.entry k = none → ∃ a, started a) ∧
      ∀ o, s.rep.entry k = some o →
        (o.attempt ≠ e.attempt → ∃ a, started a) ∧
        (o.attempt = e.attempt → o.state ≠ .opened → ∃ a, t.allotment k = some a ∧ a.attempt = e.attempt ∧
          a.window = .closed ∧ a.ownBid = .none ∧ a.timer = .none ∧
          (¬ mine t.rep k → a.mark = .none) ∧
          (mine t.rep k → ∃ n, a.mark = if e.attempt < 255 then .reOffer (e.attempt + 1) n false else .exhaust n false)) ∧
        (o.attempt = e.attempt → o.state = .opened → ∀ a, s.allotment k = some a →
          (mine s.rep k → ¬ mine t.rep k → t.allotment k = some { a with
            timer := .none
            mark := match a.mark with
              | .reOffer n stamp true => .reOffer n stamp true
              | .exhaust stamp true => .exhaust stamp true
              | _ => .none }) ∧
          (¬ mine s.rep k → mine t.rep k → t.allotment k = some (if a.window = .closed ∧ a.mark = .none then
            { a with timer := timer e } else a)))

/-- R95: an ACTIVE crane station judges its chain claims at the completion of an own frame, when an application makes an
entry HELD or the station an owner, when a job leaves its run list, and when a pending award ends: afterwards it has a
CHAIN AWARD pending for every HELD entry it may claim, unless twelve frames are queued; and no other CHAIN award is pending than
before, but those so claimed, each with its AWARD frame carrying its cost. -/
def Obligations.ChainClaimsMade : Prop :=
  ∀ (s t : State) (c : Instr), s.keyed → t.mem.st = .active → exec c s = .next t →
    let claimable (e : JobEntry) := e.state = .held ∧ e.attempt = 0 ∧ e.job.aisle = t.cfg.aisle ∧
      e.job.fits t.cfg.craneEnd = true ∧ e.job.within t.cfg.craneEnd = true ∧ e.loadClass ≤ t.cfg.rated ∧
      (e.job.kind = 2 → ∃ d, t.rep.dock e.job.dockNumber = some d ∧ 0 < d.free) ∧
      (t.crosses e.job = true → ∃ a, t.rep.aisle t.cfg.aisle = some a ∧ a.form = .tandem ∧ a.state = .set) ∧
      ∃ p, t.rep.entry e.job.pred = some p ∧ (p.state = .awarded ∨ p.state = .active) ∧ p.owner = some t.me
    let moment := (c = .frameComplete ∧ s.link.line = .own ∧ s.link.txq ≠ []) ∨
      (s.mem.st = .active ∧
        ((∃ e ∈ t.rep.jobs, e.state = .held ∧ ∀ o, s.rep.entry e.id = some o → o.state ≠ .held) ∨
         (∃ e ∈ t.rep.jobs, e.runBy t.me = true ∧ ∃ o, s.rep.entry e.id = some o ∧ o.runBy t.me = false) ∨
         (∃ r ∈ s.seqr.runList, ∀ x ∈ t.seqr.runList, x.id ≠ r.id) ∨
         t.seqr.awards.length < s.seqr.awards.length)) ∨
      (s.mem.st = .syncing ∧ c = .applySnapEnd)
    (s.awake → moment → t.cfg.isDispatch = false → t.seqr.crane.state = .idle ∨ t.seqr.crane.state = .stepping →
      t.seqr.runList.length + t.seqr.awards.length < 4 → ∀ e ∈ t.rep.jobs, claimable e →
      (∃ a ∈ t.seqr.awards, a.job = e.id) ∨ 12 ≤ t.link.txq.length) ∧
    (∀ a ∈ t.seqr.awards, a ∉ s.seqr.awards → a.mode = .chain → a.attempt = 0 ∧ ∃ e, t.rep.entry a.job = some e ∧
      claimable e ∧ (⟨.award, be16 a.job ++ [0] ++ be16 (t.cost e) ++ [2], none, .fixed⟩ : TxFrame) ∈ t.link.txq)

/-- R91, R97, R92: a bid window closes: a queued BID is withdrawn; a sent one that heads the list is claimed by an AWARD
with its cost, an optional frame that becomes a pending award when it joins; the custodian's timer starts. R98: at a
custodial timer's expiry the mark is set, RE_OFFER with the next attempt below 255 and EXHAUST at 255, and the timer
becomes NONE. At either expiry the clock stands at or past it (log 1, DESIGN CHOICE). -/
def Obligations.AllotmentTimersExpire : Prop :=
  (∀ (s : State) (a : AllotRecord) (e : JobEntry) (x : Nat), s.awake → s.mem.st ≠ .draining → s.allotment a.job = some a →
     a.window = .running x → s.rep.entry a.job = some e →
     let wins := a.ownBid = .sent ∧ (∃ b rest, e.bids = b :: rest ∧ b.bidder = s.me) ∧ s.cfg.isDispatch = false ∧
       s.mem.st = .active ∧ (s.seqr.crane.state = .idle ∨ s.seqr.crane.state = .stepping) ∧
       s.seqr.runList.length + s.seqr.awards.length < 4 ∧ s.link.txq.length < 12
     ∃ t r, exec (.bidWindowClose a.job) s = .next t ∧ t.allotment a.job = some r ∧ t.now = max s.now x ∧
       r.window = .closed ∧ r.attempt = a.attempt ∧ r.mark = a.mark ∧
       (s.rep.custodian a.job ≠ some s.me → r.timer = a.timer) ∧
       (s.rep.custodian a.job = some s.me → e.bids = [] → r.timer = .reofferWait (t.now + 1000 * s.cfg.qTime)) ∧
       (s.rep.custodian a.job = some s.me → e.bids ≠ [] → r.timer = .awardTimeout (t.now + 2 * s.cfg.wTime)) ∧
       t.rep = s.rep ∧ t.seqr.runList = s.seqr.runList ∧ t.seqr.crane = s.seqr.crane ∧ t.port = s.port ∧
       (a.ownBid = .queued → r.ownBid = .none ∧ t.seqr.awards = s.seqr.awards ∧
         ∀ g ∈ t.link.txq, g.kind = .bid → wordAt g.payload 0 = a.job → g.sequence.isSome = true) ∧
       (wins → ∃ b, e.bids.head? = some b ∧
         t.link.txq = s.link.txq ++ [{ kind := .award, sequence := none, fill := .fixed
                                       payload := be16 a.job ++ [b8 a.attempt] ++ be16 b.cost ++ [1] }] ∧
         { job := a.job, mode := .bid, attempt := a.attempt } ∈ t.seqr.awards) ∧
       (¬ wins → a.ownBid ≠ .queued → t.link = s.link ∧ t.seqr = s.seqr)) ∧
  (∀ (s : State) (a : AllotRecord) (x : Nat), s.awake → s.mem.st ≠ .draining → s.allotment a.job = some a →
     a.timer = .awardTimeout x ∨ a.timer = .reofferWait x →
     ∃ t, exec (.custodialTimerExpiry a.job) s = .next t ∧
       t.allotment a.job = some { a with
         timer := .none
         mark := if a.attempt < 255 then .reOffer (a.attempt + 1) s.stamp false else .exhaust s.stamp false } ∧
       (∀ k, k ≠ a.job → t.allotment k = s.allotment k) ∧
       t = { s with now := max s.now x, stamp := s.stamp + 1, allot := t.allot })

/-! ## Costs and times -/

/-- R108: the travel time is the larger of the two times read from the table, a time 0 where its difference is 0; a dock
endpoint is its rail position and level 0, a rack location its rail position and level. R113: the estimate of a TRAVEL at
its issue is T but V[c][0] when its target is the crane's position, that of a PICK or DROP its time and, when the depth is
REAR, RearExtra. R109: the accumulator starts at 0 with the flag clear; a sum above 65535 makes it 65535 and sets the
flag; the cost is the sum of the products, each held at 65535, and 65535 where that sum exceeds it, whatever the order.
R110, R111, R112: the cost of a bid is that of its terms in the order backlog, approach, carry, handling, penalty. R149,
R110: a normal job enters the run list last, an urgent one ahead of the WAITING normal jobs and behind its predecessor; its
approach starts at the destination of the job ahead of it, or with none where the crane stands or is headed. R112, R88: a
job not wholly on the own side of a SET record pays the partner's backlog and 4P div 10 (log 40, DEDUCED). R5: the load
class is that of the entry of the load, 0 where the board lacks it (log 37, DESIGN CHOICE). R114: the remaining estimate of a job
is that of the terms its phase has left, the backlog their sum, each held at 65535; the estimates are computed anew when a
step is issued, at a STEP_DONE, STEP_FAULT or HOMED that is taken, and whenever a command makes a job enter or leave the list (an
application, a reconciliation, an ABANDON, an ending), but a departure applied in SYNCING, which changes no entry of the
station's own; a blocked head is given up after that (R150), which computes no estimate of another job (logs 49 and 72,
DESIGN CHOICE). That the list holds no job twice (R148) is an invariant stated in CapacitiesKept. -/
def Obligations.TimesAndCosts : Prop :=
  (∀ (tab : ProfileTable) (c x y u v : Nat), c < 4 → x ≤ 127 → u ≤ 127 → y ≤ 31 → v ≤ 31 →
    let dx := max x u - min x u
    let dy := max y v - min y v
    tab.travel c (x, y) (u, v) =
      max (if dx = 0 then 0 else tab.at (64 * c + dx / 4)) (if dy = 0 then 0 else tab.at (64 * c + 32 + dy))) ∧
  (∀ j : JobRecord,
    j.source = (j.srcPos, if j.srcForm.getLsbD 0 then 0 else j.srcLevel) ∧
    j.dest = (j.dstPos, if j.dstForm.getLsbD 0 then 0 else j.dstLevel)) ∧
  (∀ (s : State) (p l side depth expected : Nat) (label : Bool),
    s.stepEstimate (.travel p l) =
      (if s.seqr.crane.pos = p ∧ s.seqr.crane.level = l then s.profile.at (64 * s.loadClass + 32)
      else s.profile.travel s.loadClass (s.seqr.crane.pos, s.seqr.crane.level) (p, l)) ∧
    s.stepEstimate (.pick side depth label expected) = s.cfg.pickTime + (if depth = 1 then s.cfg.rearExtra else 0) ∧
    s.stepEstimate (.drop side depth label) = s.cfg.dropTime + (if depth = 1 then s.cfg.rearExtra else 0)) ∧
  Accumulator.start = { value := 0, saturated := false } ∧
  (∀ (a : Accumulator) (time count : Nat),
    let product := min 65535 (time * count)
    (65535 < a.value + product → a.add time count = { value := 65535, saturated := true }) ∧
    (a.value + product ≤ 65535 → a.add time count = { value := a.value + product, saturated := a.saturated }) ∧
    (a.saturated = true → a.cost = 65535) ∧ (a.saturated = false → a.cost = a.value)) ∧
  (∀ l : List (Nat × Nat),
    (l.foldl (fun a p => a.add p.1 p.2) Accumulator.start).cost =
      min 65535 ((l.map fun p => min 65535 (p.1 * p.2)).sum)) ∧
  (∀ l m : List (Nat × Nat), l.Perm m →
    (l.foldl (fun a p => a.add p.1 p.2) Accumulator.start).cost =
      (m.foldl (fun a p => a.add p.1 p.2) Accumulator.start).cost) ∧
  (∀ (s : State) (e : JobEntry),
    let ahead := s.seqr.runList.take (insertPlace s.seqr.runList e.job)
    let terms := (ahead.map fun r => (r.remaining, 1)) ++
      [(s.profile.travel 0 (s.approachStart ahead) e.job.source, 1),
        (s.profile.travel e.loadClass e.job.source e.job.dest, 1), (s.cfg.pickTime, 1), (s.cfg.dropTime, 1),
        (s.cfg.rearExtra, e.job.rearCount), (s.penalty e.job, 1)]
    s.cost e = (terms.foldl (fun a p => a.add p.1 p.2) Accumulator.start).cost) ∧
  -- R5, R110, R114: the load class and the point that the crane stands at or is headed for.
  (∀ s : State,
    let c := s.seqr.crane
    (c.load = none → s.loadClass = 0) ∧
    (∀ id e, c.load = some id → s.rep.entry id = some e → s.loadClass = e.loadClass) ∧
    (∀ id, c.load = some id → s.rep.entry id = none → s.loadClass = 0) ∧
    let underWay (p l : Nat) := ∃ st, c.step = some st ∧ (st.status = .outstanding ∨ st.status = .overdue) ∧
      st.act = .travel p l
    (∀ p l, underWay p l → c.start = (p, l)) ∧ ((∀ p l, ¬ underWay p l) → c.start = (c.pos, c.level))) ∧
  -- R149, R110: the place of a new job, and the start of its approach.
  (∀ (j : JobRecord) (pre rest : List RunJob),
    (j.urgent = false → insertPlace (pre ++ rest) j = (pre ++ rest).length) ∧
    (j.urgent = true → (∀ x ∈ pre, ¬ (x.urgent = false ∧ x.phase = .waiting)) →
      (∀ x, rest.head? = some x → x.urgent = false ∧ x.phase = .waiting) →
      ((∀ x ∈ pre ++ rest, x.id ≠ j.pred) → insertPlace (pre ++ rest) j = pre.length) ∧
      ((∃ x ∈ pre, x.id = j.pred) → insertPlace (pre ++ rest) j = pre.length) ∧
      (∀ ahead x behind, rest = ahead ++ x :: behind → x.id = j.pred → (∀ y ∈ pre ++ ahead, y.id ≠ j.pred) →
        insertPlace (pre ++ rest) j = pre.length + ahead.length + 1))) ∧
  (∀ (s : State) (ahead : List RunJob),
    (ahead = [] → s.approachStart ahead = s.seqr.crane.start) ∧
    (∀ x e, ahead.getLast? = some x → s.rep.entry x.id = some e → s.approachStart ahead = e.job.dest)) ∧
  -- R88, R112: the penalty.
  (∀ (s : State) (j : JobRecord) (a : AisleRecord), s.rep.aisle s.cfg.aisle = some a →
    let b := orZero a.boundary
    let own (pos : Nat) := (s.cfg.craneEnd = .low ∧ pos / 8 < b) ∨ (s.cfg.craneEnd = .high ∧ b < pos / 8)
    let tandem := s.cfg.craneEnd = .low ∨ s.cfg.craneEnd = .high
    let pays := tandem ∧ a.form = .tandem ∧ a.state = .set ∧ ¬ (own j.srcPos ∧ own j.dstPos)
    (¬ pays → s.penalty j = 0) ∧
    (pays → ∀ n x, (if s.cfg.craneEnd = .low then a.high else a.low) = some n → s.rep.station n = some x →
      s.penalty j = x.backlog + 4 * s.cfg.pTime / 10)) ∧
  (∀ (s : State) (j : JobRecord), s.rep.aisle s.cfg.aisle = none → s.penalty j = 0) ∧
  -- R114: the remaining estimate in each phase, `start` being the point from which a first term counts.
  (∀ (s : State) (start : Option Point) (r : RunJob),
    let c := s.seqr.crane
    let issuedAs (x : Option Step) (n : Nat) := ∃ st p l, x = some st ∧ st.job = some r.id ∧ st.act = .travel p l ∧
      st.estimate = n
    let issued (n : Nat) := issuedAs c.step n ∨ ((∀ m, ¬ issuedAs c.step m) ∧ issuedAs (c.setAside.map Prod.fst) n)
    (r.phase = .finishing → s.remaining start r = some 0) ∧
    ∀ e, s.rep.entry r.id = some e →
      let rear (form : Byte) := if form.getLsbD 0 = false ∧ form.getLsbD 2 = true then s.cfg.rearExtra else 0
      let pick := s.cfg.pickTime + rear e.job.srcForm
      let carry := s.profile.travel e.loadClass e.job.source e.job.dest
      let drop := s.cfg.dropTime + rear e.job.dstForm
      let is (n : Nat) := s.remaining start r = some (min 65535 n)
      (∀ a, r.phase = .waiting → start = some a →
        is (s.profile.travel 0 a e.job.source + pick + carry + drop)) ∧
      (∀ n, r.phase = .toSource → issued n → is (n + pick + carry + drop)) ∧
      (∀ a, r.phase = .toSource → (∀ n, ¬ issued n) → start = some a →
        is (s.profile.travel 0 a e.job.source + pick + carry + drop)) ∧
      (r.phase = .picking → is (pick + carry + drop)) ∧
      (∀ n, r.phase = .toDest → issued n → is (n + drop)) ∧
      (r.phase = .toDest → (∀ n, ¬ issued n) → is (carry + drop)) ∧
      (r.phase = .dropping → is drop)) ∧
  (∀ s : State, s.backlog = min 65535 ((s.seqr.runList.map RunJob.remaining).sum)) ∧
  (∀ (s t : State) (c : Instr), s.mem.st ≠ .faulted → s.listed → exec c s = .next t →
    (c ∈ [.stepIssue, .stepDone, .stepFault, .homed] → t.seqr.crane ≠ s.seqr.crane →
      s.reestimated t ∧ ((∀ r ∈ s.seqr.runList, s.blocked r = false) → t.estimated)) ∧
    (t.seqr.runList.map RunJob.id ≠ s.seqr.runList.map RunJob.id →
      (s.mem.st = .syncing → c ∉ [.applyLeave, .applyLost]) → s.reestimated t))

/-! ## Docks and aisles -/

/-- R126, R119: a DOCK of the record's server clears its places when they are occupied; any other DOCK changes nothing,
and its sender is told, except in SYNCING of a record that its table lacks (R128); a DOCK of a sender absent from the Roster
is ignored. -/
def Obligations.DockApplied : Prop :=
  (∀ (s : State) (f : Frame), s.applies f → f.kind = .dock →
    let n := byteAt f.payload 0
    let count := byteAt f.payload 1
    ∃ t, exec .applyDock s = .next t ∧ t.rep.roster = s.rep.roster ∧ t.rep.aisles = s.rep.aisles ∧
      t.rep.jobs = s.rep.jobs ∧ (∀ k, k ≠ n → t.rep.dock k = s.rep.dock k) ∧
      (∀ d, s.rep.dock n = some d → d.server = some f.sender → 1 ≤ count → count ≤ 4 →
        (count ≤ d.occupied → t.port = s.port ∧
          t.rep.dock n = some { d with occupied := d.occupied - count, free := d.free + count }) ∧
        (d.occupied < count → t.rep = s.rep ∧ t.port =
          if f.sender = s.me then s.port.give [5, 10, b8 n, b8 count, b8 d.occupied] else s.port)) ∧
      (∀ d, s.rep.dock n = some d → d.server ≠ some f.sender ∨ count < 1 ∨ 4 < count → t.rep = s.rep ∧ t.port =
        if f.sender = s.me then s.port.give [7, 8, 7, 3, 0, 0, b8 n] else s.port) ∧
      (s.rep.dock n = none → t.rep = s.rep ∧ t.port =
        if f.sender = s.me ∧ s.mem.st ≠ .syncing then s.port.give [7, 8, 7, 3, 0, 0, b8 n] else s.port)) ∧
  (∀ (s : State) (f : Frame) (rest : List Frame), s.awake → s.running = true → s.link.rxq = f :: rest →
    f.kind = .dock → s.rep.present f.sender = false → exec .applyDock s = .next
      (State.markLeave { s with link := { s.link with rxq := rest } }))

/-- R146, R141: the boundary of an aisle's record moves at a RESOLVE of form AISLE toward an absent field of a FROZEN
record, and at a GRANT of a SET record's station toward that station; it is fixed otherwise, and nothing else of the
replica changes. The granter's partner ask and the asker's own ask end; in SYNCING the partner is the station that the ask
concerns (log 40, DEDUCED). A RESOLVE that moves nothing gives its sender REFUSED at its own application, but for an aisle
without a record in SYNCING (log 27, DEDUCED). -/
def Obligations.BoundaryMoves : Prop :=
  (∀ (s : State) (f : Frame), s.applies f →
    (f.kind = .resolve → f.payload.length ≠ 4 → byteAt f.payload 0 = 2 → s.rep.aisle (byteAt f.payload 1) = none →
      ∃ t, exec .applyResolveAisle s = .next t ∧ t.rep = s.rep ∧ t.port =
        if s.rep.presentAs f.sender .dispatch = true ∧ f.sender = s.me ∧ s.mem.st ≠ .syncing then
          s.port.give [7, 8, 9, 3, 1, 0, b8 (byteAt f.payload 1)]
        else s.port) ∧
    (f.kind = .boundary → byteAt f.payload 1 = 2 → s.rep.aisle (byteAt f.payload 0) = none →
      ∃ t, exec .applyBoundaryGrant s = .next t ∧ t.rep = s.rep ∧ t.port = s.port ∧
        (∀ w p, f.sender = s.me → s.ownBoundary f = true → s.bnd.partnerAsk = .granting w p →
          t.bnd.partnerAsk = .none) ∧
        (∀ w, s.mem.st = .syncing → f.sender ≠ s.me → s.ownBoundary f = true → s.bnd.ownAsk = .waiting w f.sender →
          t.bnd.ownAsk = .none ∧ t.bnd.reAsk = s.bnd.reAsk))) ∧
  ∀ (s : State) (f : Frame) (a : AisleRecord), s.applies f →
    (f.kind = .resolve → f.payload.length ≠ 4 → byteAt f.payload 0 = 2 → s.rep.aisle (byteAt f.payload 1) = some a →
      let v := byteAt f.payload 2
      let moves := s.rep.presentAs f.sender .dispatch = true ∧ a.form = .tandem ∧ a.state = .frozen ∧ 1 ≤ v ∧ v ≤ 14 ∧
        ((orZero a.boundary < v ∧ a.high = none) ∨ (v < orZero a.boundary ∧ a.low = none))
      ∃ t, exec .applyResolveAisle s = .next t ∧ t.rep.roster = s.rep.roster ∧ t.rep.docks = s.rep.docks ∧
        t.rep.jobs = s.rep.jobs ∧ (∀ k, k ≠ a.aisle → t.rep.aisle k = s.rep.aisle k) ∧
        (moves → t.rep.aisle a.aisle = some { a with boundary := some v } ∧ t.port = s.port) ∧
        (¬ moves → t.rep = s.rep) ∧ (s.rep.presentAs f.sender .dispatch = false → t.port = s.port) ∧
        (¬ moves → s.rep.presentAs f.sender .dispatch = true → t.port =
          if f.sender = s.me then s.port.give [7, 8, 9, 3, 1, 0, b8 (byteAt f.payload 1)] else s.port)) ∧
    (f.kind = .boundary → byteAt f.payload 1 = 2 → s.rep.aisle (byteAt f.payload 0) = some a →
      let v := byteAt f.payload 2
      let moves := s.rep.presentAs f.sender .crane = true ∧ a.form = .tandem ∧ a.state = .set ∧ 1 ≤ v ∧ v ≤ 14 ∧
        ((a.low = some f.sender ∧ v < orZero a.boundary) ∨ (a.high = some f.sender ∧ orZero a.boundary < v))
      ∃ t, exec .applyBoundaryGrant s = .next t ∧ t.rep.roster = s.rep.roster ∧ t.rep.docks = s.rep.docks ∧
        t.rep.jobs = s.rep.jobs ∧ (∀ k, k ≠ a.aisle → t.rep.aisle k = s.rep.aisle k) ∧ t.port = s.port ∧
        (moves → t.rep.aisle a.aisle = some { a with boundary := some v }) ∧ (¬ moves → t.rep = s.rep) ∧
        (∀ w p, f.sender = s.me → s.ownBoundary f = true → s.bnd.partnerAsk = .granting w p →
          t.bnd.partnerAsk = .none) ∧
        (∀ w p, f.sender ≠ s.me → s.ownBoundary f = true →
          (if s.mem.st = .syncing then p = f.sender else s.partner = some f.sender) → s.bnd.ownAsk = .waiting w p →
          t.bnd.ownAsk = .none ∧ t.bnd.reAsk = s.bnd.reAsk))

/-- R138, R139: an ASK of a value 1–14: at its sender the own ask that it was made for, SENDING with that value and
its mark turned into a frame, becomes WAITING, and any other stays (log 53, DEDUCED); at the partner, in ACTIVE or
DRAINING, it is judged in the order of R139, one taken while a partner ask stands among them (log 51, DESIGN CHOICE);
in SYNCING it is HELD (R144). R140: a deferral is judged again by every crane request, step issue and step timer that
changes the crane record: refused UNABLE, granted once the crane stands clear, or standing (an unable crane first; log
21, DEDUCED). -/
def Obligations.AskApplied : Prop :=
  (∀ (s : State) (f : Frame), s.applies f → f.kind = .boundary → byteAt f.payload 1 = 1 → 1 ≤ byteAt f.payload 2 →
    byteAt f.payload 2 ≤ 14 → s.ownBoundary f = true →
    let v := byteAt f.payload 2
    ∃ t, exec .applyBoundaryAsk s = .next t ∧ t.rep = s.rep ∧ t.port = s.port ∧
      (∀ p, f.sender = s.me → s.bnd.ownAsk = .sending v p → s.bnd.askMark = none →
        t.bnd = { s.bnd with ownAsk := .waiting v p }) ∧
      (f.sender = s.me → s.bnd.askMark ≠ none ∨ (∀ p, s.bnd.ownAsk ≠ .sending v p) → t.bnd = s.bnd) ∧
      (f.sender ≠ s.me → s.running = true → s.aisleSet = true → s.partner = some f.sender →
        s.askJudged v f.sender s.stamp s.bnd t.bnd) ∧
      (f.sender ≠ s.me → s.mem.st = .syncing → s.bnd.partnerAsk = .none ∨ (∃ w p, s.bnd.partnerAsk = .held w p) →
        t.bnd = { s.bnd with partnerAsk := .held v f.sender })) ∧
  (∀ (s t : State) (c : Instr), c ∈ [.homed, .stepDone, .stepFault, .stepTimerExpiry, .retry, .abandon, .modeManual,
      .modeAuto, .modeOutOfService, .modeInService, .stepIssue] → exec c s = .next t → t.seqr.crane ≠ s.seqr.crane →
    t.deferralJudged s.bnd)

/-- R142: a REFUSE of the partner at a WAITING asker ends the own ask, starts the re-ask timer and gives a BOUNDARY_WAIT
once per head job, with the boundary that the board holds; in SYNCING the partner is the station that the ask concerns
(R144, log 40, DEDUCED), and without a record the boundary shown is a free value (log 6, DESIGN CHOICE). The value and the
reason are shown as carried, in their ranges or not (log 66, DESIGN CHOICE). R137, R142: the
re-ask timer stops at its expiry, the clock then at or past it (log 1, DESIGN CHOICE). -/
def Obligations.RefusedAskWaits : Prop :=
  (∀ (s : State) (f : Frame) (w : Nat) (p : Station), s.applies f → f.kind = .boundary → byteAt f.payload 1 = 3 →
     s.ownBoundary f = true → f.sender ≠ s.me →
     (if s.mem.st = .syncing then p = f.sender else s.partner = some f.sender) → s.bnd.ownAsk = .waiting w p →
     ∃ t, exec .applyBoundaryRefuse s = .next t ∧ t.rep = s.rep ∧ t.bnd.ownAsk = .none ∧
       t.bnd.reAsk = .running (s.now + 4 * s.cfg.pTime) ∧ t.bnd.partnerAsk = s.bnd.partnerAsk ∧
       (s.seqr.head = none → t.port = s.port ∧ t.bnd.lastWaited = s.bnd.lastWaited) ∧
       (∀ r, s.seqr.head = some r → t.bnd.lastWaited = some r.id ∧
         (s.bnd.lastWaited = some r.id → t.port = s.port) ∧
         (s.bnd.lastWaited ≠ some r.id → ∃ b : Nat,
           (∀ a, s.rep.aisle s.cfg.aisle = some a → b = orZero a.boundary) ∧
           t.port = s.port.give ([8, 7] ++ be16 r.id ++
             [b8 s.cfg.aisle, b8 b, b8 (byteAt f.payload 2), b8 (byteAt f.payload 3)])))) ∧
  (∀ (s : State) (e : Nat), s.awake → s.bnd.reAsk = .running e →
     (s.running = false ∨ s.seqr.crane.state ≠ .idle ∨ s.choice = none → exec .reAskTimerExpiry s = .next
       { s with now := max s.now e, bnd := { s.bnd with reAsk := .stopped } }.markLeave))

/-- R137: on a crane station, a step of the head job that R135 holds back, its next step or its HELD one given again, is judged at STEP_ISSUE
and at the expiry of the re-ask timer, the clock then at or past it (log 1, DESIGN CHOICE): with the record SET, no ask
and no re-ask timer running, the ask is SENDING with the value that takes in every needed segment, its mark set; where
that value lies outside 1–14 a BOUNDARY_WAIT with reason REACH, and with the record FROZEN one with reason FROZEN, is
given once per head job; with an ask or the timer active nothing is done. Where several of these findings hold, FROZEN
goes before an active ask or timer, and that before REACH (log 71, DESIGN CHOICE). Room in the notice queue is not asked
for (log 34, DEDUCED). -/
def Obligations.HeldBackStepJudged : Prop :=
  ∀ (s : State) (c : Instr) (r : RunJob) (act : StepAct) (a : AisleRecord), s.awake → s.running = true →
    s.cfg.isDispatch = false → s.seqr.crane.state = .idle → s.seqr.crane.pos ≤ 127 → s.seqr.head = some r → s.blocked r = false →
    s.yieldAct = none → s.stepSafe act = false → s.rep.aisle s.cfg.aisle = some a → a.form = .tandem →
    (s.cfg.craneEnd = .low ∨ s.cfg.craneEnd = .high) →
    ((s.seqr.crane.step = none ∧ ∃ e, s.rep.entry r.id = some e ∧ s.nextAct r e = some act) ∨
      ∃ st, s.seqr.crane.step = some st ∧ st.status = .held ∧ st.yield = false ∧ st.job = some r.id ∧ st.act = act) →
    (c = .stepIssue ∨ ∃ x, c = .reAskTimerExpiry ∧ s.bnd.reAsk = .running x) →
    let timer : Timer := if c = .reAskTimerExpiry then .stopped else s.bnd.reAsk
    let before : BoundaryUnit := { s.bnd with reAsk := timer }
    let needed (g : Nat) := g = s.seqr.crane.pos / 8 ∨ (∃ p l, act = .travel p l ∧ g = p / 8) ∨
      ∃ e, s.rep.entry r.id = some e ∧ ((r.loaded = false ∧ g = e.job.srcPos / 8) ∨ g = e.job.dstPos / 8)
    let asks (v : Nat) := 1 ≤ v ∧ v ≤ 14 ∧
      (s.cfg.craneEnd = .low → (∀ g, needed g → g < v) ∧ needed (v - 1)) ∧
      (s.cfg.craneEnd = .high → (∀ g, needed g → v < g) ∧ needed (v + 1))
    let free := s.bnd.ownAsk = .none ∧ s.bnd.partnerAsk = .none ∧ ∀ x, timer ≠ .running x
    let waits (t : State) (reason : Byte) :=
      (s.bnd.lastWaited = some r.id → t.bnd = before ∧ t.port = s.port) ∧
      (s.bnd.lastWaited ≠ some r.id → t.bnd = { before with lastWaited := some r.id } ∧ t.port = s.port.give
        ([8, 7] ++ be16 r.id ++ [b8 s.cfg.aisle, b8 (orZero a.boundary), 0, reason]))
    ∃ t, exec c s = .next t ∧ t.rep = s.rep ∧ t.seqr = s.seqr ∧ t.link = s.link ∧ t.mem.st = s.mem.st ∧
      (c = .stepIssue → t.now = s.now) ∧ (∀ x, c = .reAskTimerExpiry → s.bnd.reAsk = .running x → t.now = max s.now x) ∧
      (a.state = .frozen → waits t 4) ∧
      (a.state = .set → free → ∀ v p, asks v → s.partner = some p → t.port = s.port ∧
        t.bnd = { before with ownAsk := .sending v p, askMark := some s.stamp }) ∧
      (a.state = .set → free → (∀ v, ¬ asks v) → waits t 5) ∧
      (a.state = .set → ¬ free → t.bnd = before ∧ t.port = s.port)

/-! ## The Step Sequencer -/

/-- R157, R152: HOMED in UNKNOWN: the position is taken, the crane is IDLE, and a CRANE notice is given; in another
state, or with a field out of its range, it is refused, a range being judged first (log 57, DESIGN CHOICE). R164,
R163: the four values of MODE: MANUAL and OUT_OF_SERVICE surrender the run list (STRANDED for a loaded head, RELEASED
for every other job without a final milestone) and set the state, in that state already changing nothing; AUTO and
IN_SERVICE return the crane to UNKNOWN with load none, and are refused elsewhere; a CRANE notice tells each. The stall
cause is none outside STALLED (log 18, DEDUCED). A MODE of another value is refused by whichever row is commanded (log
16, DESIGN CHOICE). R156: all are refused on a dispatch station. -/
def Obligations.HomedAndModeTaken : Prop :=
  (∀ (s : State) (r : List Byte), s.requested 10 r → s.cfg.isDispatch = false → byteAt r 2 ≤ 127 → byteAt r 3 ≤ 31 →
     s.seqr.crane.state = .unknown →
     ∃ t, exec .homed s = .next t ∧
       t.seqr.crane = { s.seqr.crane with state := .idle, stall := .none, pos := byteAt r 2, level := byteAt r 3 } ∧
       t.port = s.popRequest.port.give ([8, 6, 1, r.getD 2 0, r.getD 3 0] ++ be16 (orZero s.seqr.crane.load) ++ [0]) ∧
       t.link = s.link ∧ t.rep = s.rep ∧ t.cfg = s.cfg ∧ t.profile = s.profile ∧ t.allot = s.allot ∧ t.cons = s.cons ∧
       t.mem.st = s.mem.st ∧ t.now = s.now ∧ t.seqr.awards = s.seqr.awards) ∧
  (∀ (s : State) (r : List Byte), s.requested 10 r → s.cfg.isDispatch = false →
     let refused (code i : Nat) := exec .homed s = .next (s.popRequest.refuse 10 code i 0).markLeave
     (127 < byteAt r 2 → refused badField 0) ∧ (byteAt r 2 ≤ 127 → 31 < byteAt r 3 → refused badField 1) ∧
     (byteAt r 2 ≤ 127 → byteAt r 3 ≤ 31 → s.seqr.crane.state ≠ .unknown → refused wrongState 0)) ∧
  (∀ (s : State) (r : List Byte), s.requested 15 r → s.cfg.isDispatch = false →
     let c := s.seqr.crane
     let tells (t : State) (state : Byte) := t.port = s.popRequest.port.give
       ([8, 6, state, b8 c.pos, b8 c.level] ++ be16 (orZero t.seqr.crane.load) ++ [0])
     let surrendered (t : State) (target : CraneState) :=
       t.rep = s.rep ∧ t.link = s.link ∧ t.profile = s.profile ∧ t.cfg = s.cfg ∧ t.seqr.awards = s.seqr.awards ∧
       t.seqr.crane = { c with state := target, stall := .none, step := none, setAside := none, retry := 0 } ∧
       s.surrendered t
     (byteAt r 2 = 1 → c.state ≠ .manual →
       ∃ t, exec .modeManual s = .next t ∧ surrendered t .manual ∧ tells t 4) ∧
     (byteAt r 2 = 1 → c.state = .manual → exec .modeManual s = .next s.popRequest.markLeave) ∧
     (byteAt r 2 = 3 → c.state ≠ .outOfService →
       ∃ t, exec .modeOutOfService s = .next t ∧ surrendered t .outOfService ∧ tells t 5) ∧
     (byteAt r 2 = 3 → c.state = .outOfService → exec .modeOutOfService s = .next s.popRequest.markLeave) ∧
     (byteAt r 2 = 2 → c.state = .manual → ∃ t, exec .modeAuto s = .next t ∧ tells t 0 ∧
       t.seqr.crane = { c with state := .unknown, stall := .none, load := none } ∧ t.rep = s.rep ∧ t.link = s.link ∧
       t.profile = s.profile ∧ t.cfg = s.cfg ∧ t.seqr.awards = s.seqr.awards) ∧
     (byteAt r 2 = 2 → c.state ≠ .manual →
       exec .modeAuto s = .next (s.popRequest.refuse 15 wrongState 0 0).markLeave) ∧
     (byteAt r 2 = 4 → c.state = .outOfService → ∃ t, exec .modeInService s = .next t ∧ tells t 0 ∧
       t.seqr.crane = { c with state := .unknown, stall := .none, load := none } ∧ t.rep = s.rep ∧ t.link = s.link ∧
       t.profile = s.profile ∧ t.cfg = s.cfg ∧ t.seqr.awards = s.seqr.awards) ∧
     (byteAt r 2 = 4 → c.state ≠ .outOfService →
       exec .modeInService s = .next (s.popRequest.refuse 15 wrongState 0 0).markLeave) ∧
     (¬ (1 ≤ byteAt r 2 ∧ byteAt r 2 ≤ 4) → ∀ i ∈ [Instr.modeManual, .modeAuto, .modeOutOfService, .modeInService],
       exec i s = .next (s.popRequest.refuse 15 badField 0 0).markLeave)) ∧
  (∀ (s : State) (r : List Byte), s.cfg.isDispatch = true →
     (s.requested 10 r → exec .homed s = .next (s.popRequest.refuse 10 wrongRole 0 0).markLeave) ∧
     (s.requested 11 r → exec .stepDone s = .next (s.popRequest.refuse 11 wrongRole 0 0).markLeave) ∧
     (s.requested 12 r → exec .stepFault s = .next (s.popRequest.refuse 12 wrongRole 0 0).markLeave) ∧
     (s.requested 13 r → exec .retry s = .next (s.popRequest.refuse 13 wrongRole 0 0).markLeave) ∧
     (s.requested 14 r → exec .abandon s = .next (s.popRequest.refuse 14 wrongRole 0 0).markLeave) ∧
     (s.requested 15 r →
       (byteAt r 2 = 1 → exec .modeManual s = .next (s.popRequest.refuse 15 wrongRole 0 0).markLeave) ∧
       (byteAt r 2 = 2 → exec .modeAuto s = .next (s.popRequest.refuse 15 wrongRole 0 0).markLeave) ∧
       (byteAt r 2 = 3 → exec .modeOutOfService s = .next (s.popRequest.refuse 15 wrongRole 0 0).markLeave) ∧
       (byteAt r 2 = 4 → exec .modeInService s = .next (s.popRequest.refuse 15 wrongRole 0 0).markLeave)))

/-- R158, R153, R165: a STEP_DONE of the step in flight, its position taken: a TRAVEL at its target, a PICK within rating
or a DROP ends, a step set aside becoming current again (R154), the crane is IDLE and the job advances (its marks outside
FAULTED, R167), a TRAVEL back to the endpoint of PICKING or DROPPING leaving its phase; a TRAVEL elsewhere is judged as PATH_BLOCKED by R160, and a PICK above rating fails its job. R156: any
other STEP_DONE with its fields in range is stray, with step id 0 when no step is current (log 64, DEDUCED). A PICK or DROP whose job is not in the list leaves the load as it was
(log 20, DEDUCED), and a step ends at once, absent (log 19, DEDUCED). In FAULTED the run list stays as it stood (R167). The
marks are PICKED with the measured class, FAILED with reason OVERLOAD and DONE. A position out of its range is refused,
before a stray report is, and a PICK's class outside 1–3 after it (log 57, DESIGN CHOICE). The stall cause is none outside
STALLED (log 18, DEDUCED). -/
def Obligations.StepDoneTaken : Prop :=
  (∀ (s : State) (r : List Byte), s.requested 11 r → s.cfg.isDispatch = false →
    let refused (i : Nat) := exec .stepDone s = .next (s.popRequest.refuse 11 badField i 0).markLeave
    (127 < byteAt r 3 → refused 1) ∧ (byteAt r 3 ≤ 127 → 31 < byteAt r 4 → refused 2) ∧
    (∀ st, byteAt r 3 ≤ 127 → byteAt r 4 ≤ 31 → s.seqr.crane.inFlight = some st → st.id = byteAt r 2 →
      (∃ side depth label want, st.act = .pick side depth label want) → ¬ (1 ≤ byteAt r 5 ∧ byteAt r 5 ≤ 3) →
      refused 3)) ∧
  ∀ (s : State) (r : List Byte), s.requested 11 r → s.cfg.isDispatch = false → byteAt r 3 ≤ 127 → byteAt r 4 ≤ 31 →
    (s.mem.st = .faulted → ∃ t, exec .stepDone s = .next t ∧ t.seqr.runList = s.seqr.runList) ∧
    ((∀ st, s.seqr.crane.inFlight = some st → st.id ≠ byteAt r 2) → exec .stepDone s = .next
      (s.popRequest.give ([6, 11, 11, r.getD 2 0] ++
        match s.seqr.crane.step with
        | some st => [b8 st.id, b8 st.status.code]
        | none => [0, 0])).markLeave) ∧
    ∀ st, s.seqr.crane.inFlight = some st → st.id = byteAt r 2 →
      let c := s.seqr.crane
      let idle : Crane := { c.clearStep with
        pos := byteAt r 3, level := byteAt r 4, state := .idle, stall := .none }
      let job := s.seqr.stepJob st
      (∀ p l, st.act = .travel p l → p = byteAt r 3 ∧ l = byteAt r 4 → ∃ t, exec .stepDone s = .next t ∧
        t.seqr.crane = idle ∧ t.rep = s.rep ∧ t.link = s.link ∧ t.cfg = s.cfg ∧
        (∀ x, s.mem.st ≠ .faulted → job = some x → s.seqr.head = some x → ∃ y ∈ t.seqr.runList, y.id = x.id ∧
          (x.phase = .toSource → y.phase = .picking) ∧ (x.phase = .toDest → y.phase = .dropping) ∧
          (x.phase = .picking ∨ x.phase = .dropping → y.phase = x.phase ∧ y.marks = x.marks))) ∧
      (∀ p l, st.act = .travel p l → ¬ (p = byteAt r 3 ∧ l = byteAt r 4) → ∃ t, exec .stepDone s = .next t ∧
        t.rep = s.rep ∧ t.link = s.link ∧ t.cfg = s.cfg ∧ t.profile = s.profile ∧
        (c.retry < s.cfg.retryLimit → t.seqr.crane = { c with
          pos := byteAt r 3, level := byteAt r 4, step := some { st with status := .held }, state := .idle
          stall := .none, retry := c.retry + 1 }) ∧
        (s.cfg.retryLimit ≤ c.retry → t.seqr.crane = { c with
          pos := byteAt r 3, level := byteAt r 4, step := some { st with status := .ended }, state := .stalled
          stall := .pathBlocked })) ∧
      (∀ side depth label want, st.act = .pick side depth label want → 1 ≤ byteAt r 5 → byteAt r 5 ≤ 3 →
        ∃ t, exec .stepDone s = .next t ∧ t.rep = s.rep ∧ t.link = s.link ∧ t.cfg = s.cfg ∧ t.profile = s.profile ∧
        (byteAt r 5 ≤ s.cfg.rated →
          t.seqr.crane = { idle with load := (job.map RunJob.id) <|> c.load } ∧
          (∀ x, s.mem.st ≠ .faulted → job = some x → x.finalSent = false → ∃ y ∈ t.seqr.runList, y.id = x.id ∧
            y.phase = .toDest ∧ y.loaded = true ∧ y.loadClass = byteAt r 5 ∧ x.setsMark y 2 (byteAt r 5))) ∧
        (s.cfg.rated < byteAt r 5 → t.seqr.crane = idle ∧
          (∀ x, s.mem.st ≠ .faulted → job = some x → x.finalSent = false →
            ∃ y ∈ t.seqr.runList, x.setsFinal y 4 9))) ∧
      (∀ side depth label, st.act = .drop side depth label → ∃ t, exec .stepDone s = .next t ∧ t.rep = s.rep ∧
        t.link = s.link ∧ t.cfg = s.cfg ∧ t.profile = s.profile ∧
        t.seqr.crane = { idle with load := if job.isSome then none else c.load } ∧
        (∀ x, s.mem.st ≠ .faulted → job = some x → x.finalSent = false →
          ∃ y ∈ t.seqr.runList, x.setsFinal y 3 0))

/-- R115, R116: a TRAVEL that ends on its target and on time at its first issue, with LEARN on, moves the entry that
decided its estimate an eighth of the way, rounded toward minus infinity and held at 1 and 65534; no other entry moves,
and no other step moves any. LEARN is on at 1 and off at 0; at another byte, which R187 holds, a free value (log 52,
DESIGN CHOICE). -/
def Obligations.LearningUpdate : Prop :=
  (∀ cfg : ConfigBlock, (cfg.learn = 1 → cfg.learns = true) ∧ (cfg.learn = 0 → cfg.learns = false)) ∧
  ∀ (s t : State) (r : List Byte) (st : Step) (i : Nat), s.requested 11 r → s.cfg.isDispatch = false →
    s.seqr.crane.inFlight = some st → st.id = byteAt r 2 → st.entry = some i → i < 256 →
    exec .stepDone s = .next t →
    let learns := s.cfg.learns = true ∧ st.first = true ∧ st.status = .outstanding ∧
      st.act = .travel (byteAt r 3) (byteAt r 4) ∧ byteAt r 3 ≤ 127 ∧ byteAt r 4 ≤ 31
    let elapsed : Nat := (s.now - st.issueTime) / 10
    let measured : Int := min 65535 elapsed
    (learns →
      (t.profile.at i : Int) = max 1 (min 65534 ((s.profile.at i : Int) + (measured - (st.estimate : Int)) / 8)) ∧
      ∀ j, j ≠ i → t.profile.at j = s.profile.at j) ∧
    (¬ learns → t.profile = s.profile)

/-- R159, R160, R163: a STEP_FAULT of the step in flight: a retryable kind below and at the retry limit, a kind that
fails the job, a load that cannot be put down, a lost position, and a crane-fatal fault (the marks of the jobs outside
FAULTED, R167). R156: one that names no step in flight is stray, with step id 0 when no step is current (log 64,
DEDUCED). The step of a job-fatal fault is absent afterwards, a step set aside becoming current again (log 19, DEDUCED),
also where its job has left the run list, the crane IDLE (log 20, DEDUCED). In FAULTED the run list stays as it stood (R167). The marks
are FAILED with the reason of the kind, STRANDED, and those of the surrender. A kind outside 1–9 is refused, before a
stray report is (log 57, DESIGN CHOICE). The stall cause is none outside STALLED (log 18, DEDUCED). -/
def Obligations.StepFaultTaken : Prop :=
  (∀ (s : State) (r : List Byte), s.requested 12 r → s.cfg.isDispatch = false → ¬ (1 ≤ byteAt r 3 ∧ byteAt r 3 ≤ 9) →
    exec .stepFault s = .next (s.popRequest.refuse 12 badField 1 0).markLeave) ∧
  ∀ (s : State) (r : List Byte), s.requested 12 r → s.cfg.isDispatch = false → 1 ≤ byteAt r 3 → byteAt r 3 ≤ 9 →
    ((∀ st, s.seqr.crane.inFlight = some st → st.id ≠ byteAt r 2) → exec .stepFault s = .next
      (s.popRequest.give ([6, 11, 12, r.getD 2 0] ++
        match s.seqr.crane.step with
        | some st => [b8 st.id, b8 st.status.code]
        | none => [0, 0])).markLeave) ∧
    ∀ st, s.seqr.crane.inFlight = some st → st.id = byteAt r 2 →
      let c := s.seqr.crane
      let kind := byteAt r 3
      let pick := ∃ a b l w, st.act = .pick a b l w
      let carries := (∃ a b l, st.act = .drop a b l) ∧ ∃ x, s.seqr.stepJob st = some x ∧ x.loaded = true
      let fails := 3 ≤ kind ∧ kind ≤ 5 ∧ pick
      let retries := kind ≤ 6 ∧ ¬ fails ∧ ¬ (kind = 6 ∧ carries)
      ∃ t, exec .stepFault s = .next t ∧ t.rep = s.rep ∧ t.link = s.link ∧ t.profile = s.profile ∧ t.cfg = s.cfg ∧
        t.seqr.runList.map RunJob.id = s.seqr.runList.map RunJob.id ∧
        (s.mem.st = .faulted → t.seqr.runList = s.seqr.runList) ∧
        (retries → c.retry < s.cfg.retryLimit → t.seqr.crane =
          { c with step := some { st with status := .held }, state := .idle, stall := .none, retry := c.retry + 1 }) ∧
        (retries → s.cfg.retryLimit ≤ c.retry → t.seqr.crane =
          { c with step := some { st with status := .ended }, state := .stalled
                   stall := if kind = 1 then .labelMismatch else .pathBlocked }) ∧
        (fails → t.seqr.crane = { c.clearStep with state := .idle, stall := .none } ∧
          ∀ x, s.mem.st ≠ .faulted → s.seqr.stepJob st = some x → x.finalSent = false →
            ∃ y ∈ t.seqr.runList, x.setsFinal y 4 (kind + 4)) ∧
        (kind = 6 → carries → t.seqr.crane = { c.clearStep with state := .stalled, stall := .orphanLoad } ∧
          ∀ x, s.mem.st ≠ .faulted → s.seqr.stepJob st = some x → x.finalSent = false →
            ∃ y ∈ t.seqr.runList, x.setsFinal y 5 0) ∧
        (kind = 7 → t.seqr.crane =
          { c with step := some { st with status := .held }, state := .unknown, stall := .none }) ∧
        (8 ≤ kind → t.seqr.crane =
          { c with step := none, setAside := none, retry := 0, state := .outOfService, stall := .none } ∧
          s.surrendered t)

/-- R161: RETRY of a stall with a current step: the step is HELD again, the retry count 0 and the crane IDLE; with
skip 1 the label check of a PICK or DROP stalled on LABEL_MISMATCH is off (on with skip 0, log 22, DEDUCED), and any
other skip 1 is refused. R162: ABANDON in STALLED: of a stall with a current step the job is released, failed with
reason ABANDONED or stranded; of a stall on a load the forks are empty. The current step is absent and the retry count
0, unless a step set aside becomes current again with its own count (R154; log 56, DEDUCED). In FAULTED the run list
stays as it stood (R167). Each is refused for a field out of its range and outside its stall, in the order of log 57
(DESIGN CHOICE). The stall cause is none outside STALLED (log 18, DEDUCED). -/
def Obligations.RetryAndAbandonTaken : Prop :=
  (∀ (s : State) (r : List Byte) (st : Step), s.requested 13 r → s.cfg.isDispatch = false →
     s.seqr.crane.state = .stalled →
     (s.seqr.crane.stall = .overdue ∨ s.seqr.crane.stall = .labelMismatch ∨ s.seqr.crane.stall = .pathBlocked) →
     s.seqr.crane.step = some st →
     let travel := ∃ p l, st.act = .travel p l
     let skips := s.seqr.crane.stall = .labelMismatch ∧ ¬ travel
     (byteAt r 2 = 0 ∨ (byteAt r 2 = 1 ∧ skips) → ∃ t, exec .retry s = .next t ∧ t.rep = s.rep ∧ t.link = s.link ∧
       t.profile = s.profile ∧ t.cfg = s.cfg ∧ (s.mem.st = .faulted → t.seqr.runList = s.seqr.runList) ∧
       t.seqr.crane = { s.seqr.crane with
         state := .idle, stall := .none, retry := 0
         step := some { st with status := .held, act := st.act.labelled (byteAt r 2 == 0) } }) ∧
     (byteAt r 2 = 1 → ¬ skips → exec .retry s = .next (s.popRequest.refuse 13 badField 0 0).markLeave)) ∧
  (∀ (s : State) (r : List Byte), s.cfg.isDispatch = false →
     let stepStall := s.seqr.crane.state = .stalled ∧
       (s.seqr.crane.stall = .overdue ∨ s.seqr.crane.stall = .labelMismatch ∨ s.seqr.crane.stall = .pathBlocked)
     let option := byteAt r 2 = 1 ∨ byteAt r 2 = 2
     (s.requested 13 r → 1 < byteAt r 2 →
       exec .retry s = .next (s.popRequest.refuse 13 badField 0 0).markLeave) ∧
     (s.requested 13 r → byteAt r 2 ≤ 1 → ¬ stepStall →
       exec .retry s = .next (s.popRequest.refuse 13 wrongState 0 0).markLeave) ∧
     (s.requested 14 r → ¬ option → exec .abandon s = .next (s.popRequest.refuse 14 badField 0 0).markLeave) ∧
     (s.requested 14 r → option → s.seqr.crane.state ≠ .stalled →
       exec .abandon s = .next (s.popRequest.refuse 14 wrongState 0 0).markLeave)) ∧
  (∀ (s : State) (r : List Byte), s.requested 14 r → s.cfg.isDispatch = false →
     byteAt r 2 = 1 ∨ byteAt r 2 = 2 → s.seqr.crane.state = .stalled →
     let c := s.seqr.crane
     let ended : Crane := { c with retry := 0 }.clearStep
     (∀ st, c.step = some st → c.stall = .overdue ∨ c.stall = .labelMismatch ∨ c.stall = .pathBlocked →
       ∃ t, exec .abandon s = .next t ∧ t.rep = s.rep ∧ t.profile = s.profile ∧ t.cfg = s.cfg ∧
       (s.mem.st = .faulted → t.seqr.runList = s.seqr.runList) ∧
       (s.seqr.stepJob st = none → t.seqr.crane = { ended with state := .idle, stall := .none }) ∧
       (∀ x, s.seqr.stepJob st = some x → t.seqr.crane =
         if x.loaded then { ended with state := .stalled, stall := .orphanLoad }
         else { ended with state := .idle, stall := .none }) ∧
       (∀ x, s.mem.st ≠ .faulted → s.seqr.stepJob st = some x → x.finalSent = false → ∃ y ∈ t.seqr.runList,
         (x.loaded = true → x.setsFinal y 5 0) ∧ (x.loaded = false → byteAt r 2 = 1 → x.setsFinal y 6 0) ∧
         (x.loaded = false → byteAt r 2 = 2 → x.setsFinal y 4 6))) ∧
     (c.stall = .orphanLoad ∨ c.stall = .conflict → ∃ t, exec .abandon s = .next t ∧ t.rep = s.rep ∧
       t.profile = s.profile ∧ t.cfg = s.cfg ∧ t.seqr.crane.state = .idle ∧ t.seqr.crane.stall = .none ∧
       t.seqr.crane.load = none ∧ t.seqr.crane.point = c.point ∧
       (c.setAside = none → t.seqr.crane =
         { c with state := .idle, stall := .none, step := none, retry := 0, load := none }) ∧
       (c.stall = .conflict → s.mem.st ≠ .faulted → ∀ id, c.load = some id → ∀ x ∈ t.seqr.runList, x.id ≠ id) ∧
       (s.mem.st = .faulted → t.seqr.runList = s.seqr.runList) ∧
       (c.stall = .orphanLoad → t.seqr.runList.map RunJob.id = s.seqr.runList.map RunJob.id)))

/-- R153, R154, R155, R113, R165: a step of the head job, a HELD step or a yield step is issued when the rules let it:
it takes the next id, its estimate, the profile entry that decides it (R116) and its timer, and the crane is STEPPING;
a STEP notice with its fields is given first (log 14, DESIGN CHOICE), the expected class of a DROP a free value (log
6, DESIGN CHOICE). A DROP is first issued with its label check on (log 22, DEDUCED). In PICKING or DROPPING with the
crane elsewhere the step is a TRAVEL back to the endpoint, which leaves the phase and the marks. R140: a crane IDLE
inside the conceded segments of a DEFERRED ask yields to 8v − 1 or 8(v + 1) at its level; a yield step goes ahead of a
HELD step, which is set aside with its retry count, unless that is the yield step itself, given again (log 21,
DEDUCED). R155: at the expiry of the timer of an OUTSTANDING step, the clock at or past it (log 1, DESIGN CHOICE), the
step is OVERDUE and current, the crane STALLED with cause OVERDUE, and a STEP_OVERDUE and then a CRANE notice are
given (log 14, DESIGN CHOICE), an estimate above 65535 shown as a free value (log 6, DESIGN CHOICE). No step is issued
outside ACTIVE and DRAINING, with the crane not IDLE, with the notice queue full, with no step to give (every job
FINISHING; or the head in TO_SOURCE, or after its first TRAVEL with an entry that is not ACTIVE, R153), and none for a
head that R150 blocks: a blocked head whose predecessor stands ahead of it waits, and another is given up, a RELEASED
milestone set for it and its phase FINISHING (in FAULTED no milestone is set, R167). A step that R135 forbids is not
issued (written out in TravelKeepsToOwnSide). A dispatch station drives no crane: it issues no step and asks for no
rail, whatever crane record it has kept (log 67, DESIGN CHOICE). -/
def Obligations.StepIssuedAndTimed : Prop :=
  (∀ s : State, s.awake → s.cfg.isDispatch = true → ∃ t, exec .stepIssue s = .next t ∧ t.seqr.crane = s.seqr.crane ∧
     t.port = s.port ∧ t.bnd = s.bnd ∧ t.rep = s.rep ∧ t.link = s.link) ∧
  (∀ s : State, s.awake →
     (s.running = false ∨ s.seqr.crane.state ≠ .idle → ∃ t, exec .stepIssue s = .next t ∧ t.seqr.crane = s.seqr.crane ∧
       t.port = s.port ∧ t.bnd = s.bnd ∧ t.rep = s.rep ∧ t.link = s.link) ∧
     (32 ≤ s.port.notices.length → ∃ t, exec .stepIssue s = .next t ∧ t.seqr.crane = s.seqr.crane ∧
       t.port.notices = s.port.notices ∧ t.rep = s.rep ∧ t.link = s.link) ∧
     (s.yieldAct = none → s.seqr.crane.step = none → (∀ x ∈ s.seqr.runList, x.phase = .finishing) →
       ∃ t, exec .stepIssue s = .next t ∧ t.seqr = s.seqr ∧ t.port = s.port ∧ t.bnd = s.bnd) ∧
     (∀ pre r post e, s.seqr.runList = pre ++ r :: post → (∀ x ∈ pre, x.phase = .finishing ∧ x.id ≠ r.id) →
       r.phase = .waiting → (∀ x ∈ post, x.id ≠ r.id) → s.rep.entry r.id = some e → s.rep.predLive e.job = true →
       (s.mem.st ≠ .faulted → r.finalSent = false → (∀ x ∈ pre, x.id ≠ e.job.pred) → ∃ t, exec .stepIssue s = .next t ∧
         ∃ y ∈ t.seqr.runList, r.setsFinal y 6 0) ∧
       (s.seqr.crane.step = none → ∃ t, exec .stepIssue s = .next t ∧
         (∀ st, t.seqr.crane.step = some st → st.job ≠ some r.id) ∧
         (s.yieldAct = none → (∃ x ∈ pre, x.id = e.job.pred) →
           t.seqr = s.seqr ∧ t.port = s.port ∧ t.bnd = s.bnd))) ∧
     (∀ r, s.yieldAct = none → s.seqr.crane.step = none → s.seqr.head = some r → r.phase ≠ .waiting →
       r.phase = .toSource ∨ (∀ e, s.rep.entry r.id = some e → e.state ≠ .active) →
       ∃ t, exec .stepIssue s = .next t ∧ t.seqr = s.seqr ∧ t.port = s.port ∧ t.bnd = s.bnd)) ∧
  (∀ s : State, s.awake → s.running = true → s.cfg.isDispatch = false → s.seqr.crane.state = .idle →
     s.port.notices.length < 32 →
     let c := s.seqr.crane
     let issued (t : State) (st : Step) (act : StepAct) (job : Option JobId) (first : Bool) :=
       exec .stepIssue s = .next t ∧ t.seqr.crane.step = some st ∧ st.id = c.nextId ∧ st.act = act ∧ st.job = job ∧
       st.estimate = s.stepEstimate act ∧ st.issueTime = s.now ∧ st.first = first ∧ st.status = .outstanding ∧
       st.expiry = s.now + 2 * s.stepEstimate act * 10 + 1000 * s.cfg.margin ∧ t.seqr.crane.state = .stepping ∧
       t.seqr.crane.nextId = (c.nextId + 1) % 256 ∧ t.seqr.crane.point = c.point ∧ t.seqr.crane.load = c.load ∧
       t.seqr.crane.retry = (if first then 0 else c.retry) ∧
       (∃ expected more, t.port.notices = s.port.notices ++ (match act with
         | .travel p l => [8, 4, b8 st.id, 1] ++ be16 (orZero job) ++ [b8 p, b8 l]
         | .pick side depth label want =>
           [10, 4, b8 st.id, 2] ++ be16 (orZero job) ++ [b8 side, b8 depth, if label then 1 else 0, b8 want]
         | .drop side depth label =>
           [10, 4, b8 st.id, 3] ++ be16 (orZero job) ++ [b8 side, b8 depth, if label then 1 else 0, expected]) :: more) ∧
       ((∀ p l, act ≠ .travel p l) → st.entry = none) ∧
       (∀ p l, act = .travel p l → c.pos ≤ 127 → c.level ≤ 31 → p ≤ 127 → l ≤ 31 →
         let dx := max c.pos p - min c.pos p
         let dy := max c.level l - min c.level l
         let horizontal := 64 * s.loadClass + dx / 4
         let vertical := 64 * s.loadClass + 32 + dy
         let byRail := dx ≠ 0 ∧ (if dy = 0 then 0 else s.profile.at vertical) ≤ s.profile.at horizontal
         st.entry = some (if byRail then horizontal else vertical)) ∧
       t.rep = s.rep ∧ t.link = s.link ∧ t.cfg = s.cfg ∧ t.profile = s.profile ∧ t.now = s.now ∧ t.mem.st = s.mem.st
     (∀ r e act, c.step = none → s.yieldAct = none → s.seqr.head = some r → s.rep.entry r.id = some e →
       (r.phase = .waiting ∧ s.rep.predLive e.job = false ∧ act = .travel e.job.source.1 e.job.source.2 ∨
         r.phase = .picking ∧ e.state = .active ∧ c.point = e.job.source ∧
           act = .pick (stepSide e.job.srcForm) (stepDepth e.job.srcForm) true e.loadClass ∨
         r.phase = .toDest ∧ e.state = .active ∧ act = .travel e.job.dest.1 e.job.dest.2 ∨
         r.phase = .picking ∧ e.state = .active ∧ c.point ≠ e.job.source ∧
           act = .travel e.job.source.1 e.job.source.2 ∨
         r.phase = .dropping ∧ e.state = .active ∧ c.point = e.job.dest ∧
           act = .drop (stepSide e.job.dstForm) (stepDepth e.job.dstForm) true ∨
         r.phase = .dropping ∧ e.state = .active ∧ c.point ≠ e.job.dest ∧
           act = .travel e.job.dest.1 e.job.dest.2) →
       s.stepSafe act = true →
       ∃ t st, issued t st act (some r.id) true ∧
         (r.phase = .waiting → r.finalSent = false →
           ∃ y ∈ t.seqr.runList, y.phase = .toSource ∧ r.setsMark y 1 0) ∧
         (r.phase ≠ .waiting → ∃ y ∈ t.seqr.runList, y.id = r.id ∧ y.phase = r.phase ∧ y.marks = r.marks)) ∧
     (∀ form : Byte,
       stepSide form = (if form.getLsbD 0 then 3 else if form.getLsbD 1 then 1 else 0) ∧
       stepDepth form = (if form.getLsbD 0 then 3 else if form.getLsbD 2 then 1 else 0)) ∧
     (let inside (v : Nat) := ∃ a, s.rep.aisle s.cfg.aisle = some a ∧
        ((s.cfg.craneEnd = .low ∧ v ≤ c.pos / 8 ∧ c.pos / 8 < orZero a.boundary) ∨
         (s.cfg.craneEnd = .high ∧ orZero a.boundary < c.pos / 8 ∧ c.pos / 8 ≤ v))
      (∀ v q, s.bnd.partnerAsk = .deferred v q → inside v → s.yieldAct =
        some (.travel (if s.cfg.craneEnd = .low then 8 * v - 1 else 8 * (v + 1)) c.level)) ∧
      ((∀ v q, s.bnd.partnerAsk = .deferred v q → ¬ inside v) → s.yieldAct = none)) ∧
     (∀ st0, s.yieldAct = none → c.step = some st0 → st0.status = .held →
       s.stepSafe st0.act = true → ∃ t st, issued t st st0.act st0.job false) ∧
     (∀ p l, s.yieldAct = some (.travel p l) → s.sideSafe p = true →
       (c.step = none → ∃ t st, issued t st (.travel p l) none true ∧ st.yield = true) ∧
       (∀ st0 l0, c.step = some st0 → st0.status = .held → st0.yield = true → st0.act = .travel p l0 →
         ∃ t st, issued t st st0.act st0.job false ∧ st.yield = true ∧ t.seqr.crane.setAside = c.setAside) ∧
       (∀ st0, c.step = some st0 → st0.status = .held → c.setAside = none →
         (st0.yield = false ∨ ∀ l0, st0.act ≠ .travel p l0) →
         ∃ t st, issued t st (.travel p l) none true ∧ st.yield = true ∧
           t.seqr.crane.setAside = some (st0, c.retry)))) ∧
  (∀ (s : State) (st : Step), s.awake → s.seqr.crane.sound → s.seqr.crane.step = some st → st.status = .outstanding →
     ∃ t, exec .stepTimerExpiry s = .next t ∧ t.now = max s.now st.expiry ∧
       t.seqr.crane = { s.seqr.crane with step := some { st with status := .overdue }, state := .stalled,
                                          stall := .overdue } ∧
       t.seqr.awards = s.seqr.awards ∧ t.rep = s.rep ∧ t.link = s.link ∧ t.cfg = s.cfg ∧ t.profile = s.profile ∧
       ∃ shown, (st.estimate ≤ 65535 → shown = st.estimate) ∧
         t.port = (s.port.give ([7, 5, b8 st.id] ++ be16 (orZero st.job) ++ be16 shown)).give
           ([8, 6, 3, b8 s.seqr.crane.pos, b8 s.seqr.crane.level] ++ be16 (orZero s.seqr.crane.load) ++ [1]))

/-! ## The Consistency Monitor -/

/-- R174: an ACTIVE station that is not serving takes a SYNC_ASK that names it, whatever its sender; any other station,
and one already serving, ignores it. -/
def Obligations.SyncAskApplied : Prop :=
  ∀ (s : State) (f : Frame), s.awake → s.onLink = true → s.link.rxq.head? = some f → f.kind = .syncAsk →
    ∃ t, exec .applySyncAsk s = .next t ∧ t.rep = s.rep ∧ t.port = s.port ∧ t.mem.st = s.mem.st ∧
      (byteAt f.payload 0 = s.me ∧ s.mem.st = .active ∧ s.cons.serving = none →
        t.cons = { s.cons with serving := some f.sender, sent := [], itemsSent := 0, mark := .head }) ∧
      (¬ (byteAt f.payload 0 = s.me ∧ s.mem.st = .active ∧ s.cons.serving = none) → t.cons = s.cons)

/-- R178: a SNAP_HEAD of the donor begins the receiving, and a SNAP_ITEM of the donor makes its item or replaces the item
of its key, the other items kept, is counted and restarts the timer; one that is no item (a code that names no value among them; log 10,
DEDUCED), or before the head, is taken without effect, and so is a job that a board of 64 entries has no room for (R58;
log 46, DESIGN CHOICE). -/
def Obligations.SnapshotReceived : Prop :=
  ∀ (s : State) (f : Frame), s.applies f → s.mem.st = .syncing →
    let mine := byteAt f.payload 0 = s.me ∧ s.cons.donor = some f.sender
    let full (i : Item) := ∃ e, i = .job e ∧ s.rep.entry e.id = none ∧ 64 ≤ s.rep.jobs.length
    (f.kind = .snapHead → ∃ t, exec .applySnapHead s = .next t ∧ t.rep = s.rep ∧ t.port = s.port ∧
      (mine ∧ (s.cons.phase = .asked ∨ s.cons.phase = .asking) → t.cons = { s.cons with
        phase := .receiving, itemsApplied := 0, snapTimer := .running (s.now + 4 * s.cfg.pTime) }) ∧
      (¬ (mine ∧ (s.cons.phase = .asked ∨ s.cons.phase = .asking)) → t.cons = s.cons)) ∧
    (f.kind = .snapItem → ∃ t, exec .applySnapItem s = .next t ∧ t.port = s.port ∧
      (∀ i, mine → s.cons.phase = .receiving → Item.read f.payload = some i → ¬ full i →
        t.rep = s.rep.putItem i ∧
        (∀ k, t.rep.station k = match i with
          | .station x => if k = x.number then some x else s.rep.station k
          | _ => s.rep.station k) ∧
        (∀ k, t.rep.dock k = match i with
          | .dock x => if k = x.number then some x else s.rep.dock k
          | _ => s.rep.dock k) ∧
        (∀ k, t.rep.aisle k = match i with
          | .aisle x => if k = x.aisle then some x else s.rep.aisle k
          | _ => s.rep.aisle k) ∧
        (∀ k, t.rep.entry k = match i with
          | .job x => if k = x.id then some x else s.rep.entry k
          | _ => s.rep.entry k) ∧
        t.cons = { s.cons with
          itemsApplied := min 65535 (s.cons.itemsApplied + 1)
          snapTimer := .running (s.now + 4 * s.cfg.pTime) }) ∧
      (¬ mine ∨ s.cons.phase ≠ .receiving ∨ (∀ i, Item.read f.payload = some i → full i) →
        t.rep = s.rep ∧ t.cons = s.cons))

/-- R179, R181: a SNAP_END of the donor in RECEIVING whose count and signature agree: success where the rebuilt replica holds
the station's own item with the role, aisle, end and served docks of its configuration, in ACTIVE or, with a leave mark,
DRAINING; FAULTED with cause ROLE_CONFLICT where it does not. The snapshot timer stops at a
success (log 40, DEDUCED). R37, R80: the STATE notice is given and then, on a dispatch station, one JOB notice for every
entry it reports (that order by log 14, DESIGN CHOICE). R144: an ask that does not concern the station in the other field
of a SET record is void with its mark, the re-ask timer going on (log 26, DEDUCED); a HELD ask is judged by R139, a
DEFERRED one again by R140 (log 21, DEDUCED), and every other goes on. -/
def Obligations.SnapshotJudged : Prop :=
  ∀ (s : State) (f : Frame), s.applies f → s.mem.st = .syncing → f.kind = .snapEnd → byteAt f.payload 0 = s.me →
    s.cons.donor = some f.sender → s.cons.phase = .receiving → wordAt f.payload 1 = s.cons.itemsApplied →
    wordAt f.payload 1 ≠ 65535 → wideAt f.payload 3 = s.rep.signature →
    let own := ∃ x, s.rep.station s.me = some x ∧
      (s.cfg.isDispatch = true → x.role = .dispatch ∧ x.aisle = 0 ∧ x.craneEnd = .absent ∧
        x.docks.Pairwise (· ≤ ·) ∧
        x.docks.Perm ((List.range (min s.cfg.dockCount 4)).map fun i => s.cfg.byte (7 + 3 * i))) ∧
      (s.cfg.isDispatch = false →
        x.role = .crane ∧ x.aisle = s.cfg.aisle ∧ x.craneEnd = s.cfg.craneEnd ∧ x.docks = [])
    (own → ∃ t, exec .applySnapEnd s = .next t ∧
      t.mem.st = (if s.mem.leaveMark then .draining else .active) ∧ t.mem.cause = .none ∧ t.rep = s.rep ∧
      t.cons.phase = .none ∧ t.cons.donor = none ∧ t.cons.candidates = [] ∧ t.cons.itemsApplied = 0 ∧
      t.cons.mismatch = 0 ∧ t.cons.snapTimer = .stopped ∧ t.link.loss = false ∧ t.cfg = s.cfg ∧ t.profile = s.profile ∧
      t.mem.silence = (s.rep.roster.filter fun x => x.number != s.me).map (fun x =>
        (x.number, .running (s.now + 3 * s.cfg.pTime))) ∧
      (∀ x ∈ s.seqr.runList, s.keeps x.id = true → ∃ y ∈ t.seqr.runList, y.id = x.id) ∧
      (∀ y ∈ t.seqr.runList, ∃ e ∈ s.rep.jobs, e.id = y.id ∧ e.runBy s.me = true) ∧
      ((∀ x ∈ s.seqr.runList, s.seqr.crane.load = some x.id → s.keeps x.id = true) →
        let state : Port := { s.port with stateChange := true }
        t.port = (if s.cfg.isDispatch then
            (s.rep.jobs.filter fun e => s.rep.reporter e.id == some s.me).map fun e =>
              noticeJob e.id e.state.code (orZero e.owner) e.reason
          else []).foldl Port.give (state.give [4, 1, if s.mem.leaveMark then 4 else 3, 0])) ∧
      let void (p : Option Station) : Bool := p.any fun n => !(s.aisleSet && s.partner == some n)
      let kept : BoundaryUnit := { s.bnd with
        ownAsk := if void s.bnd.ownAsk.peer then .none else s.bnd.ownAsk
        askMark := if void s.bnd.ownAsk.peer then none else s.bnd.askMark
        partnerAsk := if void s.bnd.partnerAsk.peer then .none else s.bnd.partnerAsk
        answer := if void s.bnd.answer.peer then .none else s.bnd.answer }
      (∀ v p, kept.partnerAsk = .held v p → ∃ n, t.askJudged v p n { kept with partnerAsk := .none } t.bnd) ∧
      t.deferralJudged kept ∧
      ((∀ v p, kept.partnerAsk ≠ .held v p) → (∀ v p, kept.partnerAsk ≠ .deferred v p) → t.bnd = kept)) ∧
    (¬ own → ∃ t, exec .applySnapEnd s = .next t ∧ t.mem.st = .faulted ∧
      t.mem.cause = .roleConflict ∧ t.rep = s.rep ∧ t.cfg = s.cfg ∧ t.profile = s.profile)

/-- R182, R103: at a successful resynchronisation the run list keeps the jobs that the rebuilt board has AWARDED or ACTIVE
with the station as owner, in their order, each with its phase and marks but for a WAITING head that R150 gives up, and
takes in, by ascending id, the others that the board gives it: in phase FINISHING, not loaded (log 61, DESIGN CHOICE), with
a STRANDED mark for an ACTIVE entry and a RELEASED mark for an AWARDED one. A job dropped while the
crane's load names it stalls the crane with cause CONFLICT, the load kept, and a CONFLICT notice gives its entry; without
one the crane's state stays. Back in ACTIVE an allotment record is made for every OPEN entry, the custodian's timer
started. -/
def Obligations.RunListReconciled : Prop :=
  ∀ (s : State) (f : Frame), s.keyed → s.applies f → s.mem.st = .syncing → f.kind = .snapEnd →
    byteAt f.payload 0 = s.me → s.cons.donor = some f.sender → s.cons.phase = .receiving →
    wordAt f.payload 1 = s.cons.itemsApplied → wordAt f.payload 1 ≠ 65535 → wideAt f.payload 3 = s.rep.signature →
    s.ownItem →
    let mine (e : JobEntry) : Bool := (e.state == .awarded || e.state == .active) && e.owner == some s.me
    let kept (r : RunJob) : Bool := (s.rep.entry r.id).any mine
    let lost := ∃ r ∈ s.seqr.runList, kept r = false ∧ s.seqr.crane.load = some r.id
    ∃ t, exec .applySnapEnd s = .next t ∧
      t.seqr.runList.map RunJob.id = (s.seqr.runList.filter kept).map RunJob.id ++
        (s.rep.jobs.filter fun e => mine e && !(s.seqr.runList.any fun r => r.id == e.id)).map JobEntry.id ∧
      (∀ x ∈ s.seqr.runList, kept x = true → (∀ z ∈ s.seqr.runList, z.id = x.id → z = x) →
        ∃ pre y post, t.seqr.runList = pre ++ y :: post ∧ y.id = x.id ∧
          ({ y with remaining := x.remaining } = x ∨
            (x.phase = .waiting ∧ x.setsFinal y 6 0 ∧ (∀ z ∈ pre, z.phase = .finishing) ∧
              ∃ e, s.rep.entry x.id = some e ∧ s.rep.predLive e.job = true ∧ ∀ z ∈ pre, z.id ≠ e.job.pred))) ∧
      (∀ e ∈ s.rep.jobs, mine e = true → (∀ r ∈ s.seqr.runList, r.id ≠ e.id) → ∃ y ∈ t.seqr.runList, y.id = e.id ∧
        y.phase = .finishing ∧ y.finalSent = true ∧ y.loaded = false ∧
        ∃ n, y.marks = [{ milestone := if e.state = .active then 5 else 6, detail := 0, stamp := n }]) ∧
      t.seqr.crane.load = s.seqr.crane.load ∧
      (lost → t.seqr.crane.state = .stalled ∧ t.seqr.crane.stall = .conflict ∧
        (s.seqr.crane.setAside = none → t.seqr.crane.step = none) ∧
        (t.port.notices.length < 32 → ∀ id, s.seqr.crane.load = some id →
          (∀ e, s.rep.entry id = some e →
            [6, 9, b8 (id / 256), b8 id, b8 e.state.code, b8 (orZero e.owner)] ∈ t.port.notices) ∧
          (s.rep.entry id = none → [6, 9, b8 (id / 256), b8 id, 0, 0] ∈ t.port.notices))) ∧
      (¬ lost → t.seqr.crane.state = s.seqr.crane.state ∧ t.seqr.crane.stall = s.seqr.crane.stall) ∧
      (s.mem.leaveMark = true → t.allot = s.allot) ∧
      (s.mem.leaveMark = false → ∀ e ∈ s.rep.jobs, e.state = .opened → t.allotment e.id = some {
        job := e.id, attempt := e.attempt, window := .closed, ownBid := .none, mark := .none
        timer := if s.rep.custodian e.id = some s.me then
            (if e.bids = [] then .reofferWait (s.now + 1000 * s.cfg.qTime) else .awardTimeout (s.now + 2 * s.cfg.wTime))
          else .none })

/-- R180, R172, R171: a try fails by a SNAP_END that fails the check, by the snapshot timer in ASKED or RECEIVING, or when
the donor is lost or leaves: the next try begins with the next donor and an empty replica, and the third failure is a
leaving with cause SYNC_FAILED, in which a step in flight stays as one with no job (log 38, DEDUCED) and after which the try
is 0 (log 5, DESIGN CHOICE); in ASKING the timer only repeats the ask. The next donor is the next number of the candidate
list after the present one, or its first once the list is passed. -/
def Obligations.TryFails : Prop :=
  ∀ (s : State) (c : Instr), s.mem.st = .syncing → s.awake → s.mem.joinMark = false →
    (∀ g ∈ s.link.txq, g.kind ≠ .join) →
    let asks (t : State) := t.cons.phase = .asking ∧ t.rep = Replica.empty ∧ t.board = s.board ∧ t.cfg = s.cfg ∧
      t.profile = s.profile ∧ t.mem.st = .syncing ∧ t.seqr.crane.state = s.seqr.crane.state ∧
      t.seqr.crane.load = s.seqr.crane.load ∧
      (s.link.txq.length < 12 → t.cons.snapTimer = .stopped ∧ t.link.txq = s.link.txq ++
        [{ kind := .syncAsk, payload := [b8 (orZero t.cons.donor)], sequence := none, fill := .ask t.cons.tryNo }]) ∧
      (12 ≤ s.link.txq.length → t.link.txq = s.link.txq ∧
        t.cons.snapTimer = .running (t.now + 4 * s.cfg.pTime))
    let failing := (∃ f, s.applies f ∧ f.kind = .snapEnd ∧ byteAt f.payload 0 = s.me ∧ s.cons.donor = some f.sender ∧
        s.cons.phase = .receiving ∧ c = .applySnapEnd ∧ (wordAt f.payload 1 ≠ s.cons.itemsApplied ∨
          wordAt f.payload 1 = 65535 ∨ wideAt f.payload 3 ≠ s.rep.signature)) ∨
      (∃ e, s.cons.snapTimer = .running e ∧ (s.cons.phase = .asked ∨ s.cons.phase = .receiving) ∧
        c = .snapshotTimerExpiry)
    let gone := ∃ f n, s.applies f ∧ s.cons.donor = some n ∧ n ≠ s.me ∧
      ((f.kind = .lost ∧ byteAt f.payload 0 = n ∧ c = .applyLost) ∨ (f.kind = .leave ∧ f.sender = n ∧ c = .applyLeave))
    (failing ∨ gone →
      (s.cons.tryNo < 3 → ∃ t, exec c s = .next t ∧ asks t ∧ t.cons.tryNo = s.cons.tryNo + 1 ∧
        t.cons.itemsApplied = 0 ∧ t.cons.candidates = s.cons.candidates ∧
        (∀ pre n post, s.cons.candidates = pre ++ n :: post → s.cons.donor.getD 0 < n →
          (∀ x ∈ pre, x ≤ s.cons.donor.getD 0) → t.cons.donor = some n) ∧
        ((∀ x ∈ s.cons.candidates, x ≤ s.cons.donor.getD 0) → t.cons.donor = s.cons.candidates.head?) ∧
        (failing → t.seqr = s.seqr ∧ t.bnd = s.bnd)) ∧
      (3 ≤ s.cons.tryNo → ∃ t, exec c s = .next t ∧ s.leavesTo t .syncFailed)) ∧
    (∀ e, s.cons.snapTimer = .running e → s.cons.phase = .asking → s.rep = Replica.empty →
      ∃ t, exec .snapshotTimerExpiry s = .next t ∧ asks t ∧ t.cons.tryNo = s.cons.tryNo ∧
        t.cons.donor = s.cons.donor ∧ t.seqr = s.seqr ∧ t.bnd = s.bnd)
end

