-- ==== Sys2Proof/Laws/State.lean ====
section
/-! SUPPORT. One frame lemma for each plain update of the state, true by rfl: what it sets, and every field it keeps. -/

namespace Sys2Proof.Machine

/-- A notice changes the port alone. -/
@[simp] theorem State.give_frame (s : State) (n : List Byte) :
    (s.give n).pending = s.pending ∧ (s.give n).now = s.now ∧ (s.give n).fresh = s.fresh ∧
    (s.give n).stamp = s.stamp ∧ (s.give n).link = s.link ∧ (s.give n).mem = s.mem ∧ (s.give n).rep = s.rep ∧
    (s.give n).board = s.board ∧ (s.give n).allot = s.allot ∧ (s.give n).profile = s.profile ∧
    (s.give n).dockMarks = s.dockMarks ∧ (s.give n).bnd = s.bnd ∧ (s.give n).seqr = s.seqr ∧
    (s.give n).cons = s.cons ∧ (s.give n).cfg = s.cfg ∧ (s.give n).port = s.port.give n :=
  ⟨rfl, rfl, rfl, rfl, rfl, rfl, rfl, rfl, rfl, rfl, rfl, rfl, rfl, rfl, rfl, rfl⟩

/-- Notices change the port alone. -/
@[simp] theorem State.giveAll_frame (s : State) (l : List (List Byte)) :
    (s.giveAll l).pending = s.pending ∧ (s.giveAll l).now = s.now ∧ (s.giveAll l).fresh = s.fresh ∧
    (s.giveAll l).stamp = s.stamp ∧ (s.giveAll l).link = s.link ∧ (s.giveAll l).mem = s.mem ∧
    (s.giveAll l).rep = s.rep ∧ (s.giveAll l).board = s.board ∧ (s.giveAll l).allot = s.allot ∧
    (s.giveAll l).profile = s.profile ∧ (s.giveAll l).dockMarks = s.dockMarks ∧ (s.giveAll l).bnd = s.bnd ∧
    (s.giveAll l).seqr = s.seqr ∧ (s.giveAll l).cons = s.cons ∧ (s.giveAll l).cfg = s.cfg ∧
    (s.giveAll l).port = l.foldl Port.give s.port :=
  ⟨rfl, rfl, rfl, rfl, rfl, rfl, rfl, rfl, rfl, rfl, rfl, rfl, rfl, rfl, rfl, rfl⟩

/-- A refusal gives its notice and changes nothing else. -/
@[simp] theorem State.refuse_frame (s : State) (kind code index subject : Nat) :
    (s.refuse kind code index subject).pending = s.pending ∧ (s.refuse kind code index subject).now = s.now ∧
    (s.refuse kind code index subject).fresh = s.fresh ∧ (s.refuse kind code index subject).stamp = s.stamp ∧
    (s.refuse kind code index subject).link = s.link ∧ (s.refuse kind code index subject).mem = s.mem ∧
    (s.refuse kind code index subject).rep = s.rep ∧ (s.refuse kind code index subject).board = s.board ∧
    (s.refuse kind code index subject).allot = s.allot ∧ (s.refuse kind code index subject).profile = s.profile ∧
    (s.refuse kind code index subject).dockMarks = s.dockMarks ∧ (s.refuse kind code index subject).bnd = s.bnd ∧
    (s.refuse kind code index subject).seqr = s.seqr ∧ (s.refuse kind code index subject).cons = s.cons ∧
    (s.refuse kind code index subject).cfg = s.cfg ∧
    (s.refuse kind code index subject).port = s.port.give (noticeRefused kind code index subject) :=
  ⟨rfl, rfl, rfl, rfl, rfl, rfl, rfl, rfl, rfl, rfl, rfl, rfl, rfl, rfl, rfl, rfl⟩

/-- R37: a change of station state sets the state, its cause, the latch and a notice. -/
@[simp] theorem State.setStation_frame (s : State) (st : StationState) (cause : Cause) :
    (s.setStation st cause).pending = s.pending ∧ (s.setStation st cause).now = s.now ∧
    (s.setStation st cause).fresh = s.fresh ∧ (s.setStation st cause).stamp = s.stamp ∧
    (s.setStation st cause).link = s.link ∧ (s.setStation st cause).rep = s.rep ∧
    (s.setStation st cause).board = s.board ∧ (s.setStation st cause).allot = s.allot ∧
    (s.setStation st cause).profile = s.profile ∧ (s.setStation st cause).dockMarks = s.dockMarks ∧
    (s.setStation st cause).bnd = s.bnd ∧ (s.setStation st cause).seqr = s.seqr ∧
    (s.setStation st cause).cons = s.cons ∧ (s.setStation st cause).cfg = s.cfg ∧
    (s.setStation st cause).mem.heard = s.mem.heard ∧ (s.setStation st cause).mem.heardHash = s.mem.heardHash ∧
    (s.setStation st cause).mem.founding = s.mem.founding ∧
    (s.setStation st cause).mem.listenTimer = s.mem.listenTimer ∧
    (s.setStation st cause).mem.presence = s.mem.presence ∧ (s.setStation st cause).mem.silence = s.mem.silence ∧
    (s.setStation st cause).mem.joinMark = s.mem.joinMark ∧
    (s.setStation st cause).mem.leaveFrame = s.mem.leaveFrame ∧
    (s.setStation st cause).mem.lostMarks = s.mem.lostMarks ∧
    (s.setStation st cause).mem.leaveMark = s.mem.leaveMark ∧ (s.setStation st cause).mem.hash = s.mem.hash ∧
    (s.setStation st cause).mem.st = st ∧ (s.setStation st cause).mem.cause = cause ∧
    (s.setStation st cause).port = ({ s.port with stateChange := true } : Port).give (noticeState st cause) :=
  ⟨rfl, rfl, rfl, rfl, rfl, rfl, rfl, rfl, rfl, rfl, rfl, rfl, rfl, rfl, rfl, rfl, rfl, rfl, rfl, rfl, rfl, rfl, rfl, rfl, rfl, rfl, rfl, rfl⟩

/-- An age is taken. -/
@[simp] theorem State.stamped_frame (s : State) :
    (s.stamped).pending = s.pending ∧ (s.stamped).now = s.now ∧ (s.stamped).fresh = s.fresh ∧
    (s.stamped).link = s.link ∧ (s.stamped).mem = s.mem ∧ (s.stamped).rep = s.rep ∧ (s.stamped).board = s.board ∧
    (s.stamped).allot = s.allot ∧ (s.stamped).profile = s.profile ∧ (s.stamped).dockMarks = s.dockMarks ∧
    (s.stamped).bnd = s.bnd ∧ (s.stamped).seqr = s.seqr ∧ (s.stamped).cons = s.cons ∧ (s.stamped).cfg = s.cfg ∧
    (s.stamped).port = s.port ∧ (s.stamped).stamp = s.stamp + 1 :=
  ⟨rfl, rfl, rfl, rfl, rfl, rfl, rfl, rfl, rfl, rfl, rfl, rfl, rfl, rfl, rfl, rfl⟩

/-- The clock reaches an expiry. -/
@[simp] theorem State.reach_frame (s : State) (e : Nat) :
    (s.reach e).pending = s.pending ∧ (s.reach e).fresh = s.fresh ∧ (s.reach e).stamp = s.stamp ∧
    (s.reach e).link = s.link ∧ (s.reach e).mem = s.mem ∧ (s.reach e).rep = s.rep ∧ (s.reach e).board = s.board ∧
    (s.reach e).allot = s.allot ∧ (s.reach e).profile = s.profile ∧ (s.reach e).dockMarks = s.dockMarks ∧
    (s.reach e).bnd = s.bnd ∧ (s.reach e).seqr = s.seqr ∧ (s.reach e).cons = s.cons ∧ (s.reach e).cfg = s.cfg ∧
    (s.reach e).port = s.port ∧ (s.reach e).now = max s.now e :=
  ⟨rfl, rfl, rfl, rfl, rfl, rfl, rfl, rfl, rfl, rfl, rfl, rfl, rfl, rfl, rfl, rfl⟩

/-- A frame joins the tail of the transmit queue. -/
@[simp] theorem State.enqueue_frame (s : State) (kind : FrameKind) (payload : List Byte) (fill : Fill) :
    (s.enqueue kind payload fill).pending = s.pending ∧ (s.enqueue kind payload fill).now = s.now ∧
    (s.enqueue kind payload fill).fresh = s.fresh ∧ (s.enqueue kind payload fill).stamp = s.stamp ∧
    (s.enqueue kind payload fill).mem = s.mem ∧ (s.enqueue kind payload fill).rep = s.rep ∧
    (s.enqueue kind payload fill).board = s.board ∧ (s.enqueue kind payload fill).allot = s.allot ∧
    (s.enqueue kind payload fill).profile = s.profile ∧ (s.enqueue kind payload fill).dockMarks = s.dockMarks ∧
    (s.enqueue kind payload fill).bnd = s.bnd ∧ (s.enqueue kind payload fill).seqr = s.seqr ∧
    (s.enqueue kind payload fill).cons = s.cons ∧ (s.enqueue kind payload fill).cfg = s.cfg ∧
    (s.enqueue kind payload fill).port = s.port ∧ (s.enqueue kind payload fill).link.rxq = s.link.rxq ∧
    (s.enqueue kind payload fill).link.line = s.link.line ∧
    (s.enqueue kind payload fill).link.ownSeq = s.link.ownSeq ∧
    (s.enqueue kind payload fill).link.seqTable = s.link.seqTable ∧
    (s.enqueue kind payload fill).link.lastSender = s.link.lastSender ∧
    (s.enqueue kind payload fill).link.collisions = s.link.collisions ∧
    (s.enqueue kind payload fill).link.loss = s.link.loss ∧
    (s.enqueue kind payload fill).link.intervalFrom = s.link.intervalFrom ∧
    (s.enqueue kind payload fill).link.txq = s.link.txq ++ [{ kind := kind, payload := payload, sequence := none, fill := fill }] :=
  ⟨rfl, rfl, rfl, rfl, rfl, rfl, rfl, rfl, rfl, rfl, rfl, rfl, rfl, rfl, rfl, rfl, rfl, rfl, rfl, rfl, rfl, rfl, rfl, rfl⟩

/-- The head record leaves the request queue. -/
@[simp] theorem State.popRequest_frame (s : State) :
    (s.popRequest).pending = s.pending ∧ (s.popRequest).now = s.now ∧ (s.popRequest).fresh = s.fresh ∧
    (s.popRequest).stamp = s.stamp ∧ (s.popRequest).link = s.link ∧ (s.popRequest).mem = s.mem ∧
    (s.popRequest).rep = s.rep ∧ (s.popRequest).board = s.board ∧ (s.popRequest).allot = s.allot ∧
    (s.popRequest).profile = s.profile ∧ (s.popRequest).dockMarks = s.dockMarks ∧ (s.popRequest).bnd = s.bnd ∧
    (s.popRequest).seqr = s.seqr ∧ (s.popRequest).cons = s.cons ∧ (s.popRequest).cfg = s.cfg ∧
    (s.popRequest).port.asm = s.port.asm ∧ (s.popRequest).port.discard = s.port.discard ∧
    (s.popRequest).port.notices = s.port.notices ∧ (s.popRequest).port.noticePos = s.port.noticePos ∧
    (s.popRequest).port.noticeOverflow = s.port.noticeOverflow ∧
    (s.popRequest).port.requestOverflow = s.port.requestOverflow ∧
    (s.popRequest).port.requestTorn = s.port.requestTorn ∧ (s.popRequest).port.stateChange = s.port.stateChange ∧
    (s.popRequest).port.locked = s.port.locked ∧ (s.popRequest).port.enable = s.port.enable ∧
    (s.popRequest).port.txn = s.port.txn ∧ (s.popRequest).port.touched = s.port.touched ∧
    (s.popRequest).port.firstByte = s.port.firstByte ∧ (s.popRequest).port.captured = s.port.captured ∧
    (s.popRequest).port.resetHeld = s.port.resetHeld ∧ (s.popRequest).port.dataOut = s.port.dataOut ∧
    (s.popRequest).port.requests = s.port.requests.tail :=
  ⟨rfl, rfl, rfl, rfl, rfl, rfl, rfl, rfl, rfl, rfl, rfl, rfl, rfl, rfl, rfl, rfl, rfl, rfl, rfl, rfl, rfl, rfl, rfl, rfl, rfl, rfl, rfl, rfl, rfl, rfl, rfl, rfl⟩

/-- The head frame leaves the receive queue. -/
@[simp] theorem State.popFrame_frame (s : State) :
    (s.popFrame).pending = s.pending ∧ (s.popFrame).now = s.now ∧ (s.popFrame).fresh = s.fresh ∧
    (s.popFrame).stamp = s.stamp ∧ (s.popFrame).mem = s.mem ∧ (s.popFrame).rep = s.rep ∧
    (s.popFrame).board = s.board ∧ (s.popFrame).allot = s.allot ∧ (s.popFrame).profile = s.profile ∧
    (s.popFrame).dockMarks = s.dockMarks ∧ (s.popFrame).bnd = s.bnd ∧ (s.popFrame).seqr = s.seqr ∧
    (s.popFrame).cons = s.cons ∧ (s.popFrame).cfg = s.cfg ∧ (s.popFrame).port = s.port ∧
    (s.popFrame).link.txq = s.link.txq ∧ (s.popFrame).link.line = s.link.line ∧
    (s.popFrame).link.ownSeq = s.link.ownSeq ∧ (s.popFrame).link.seqTable = s.link.seqTable ∧
    (s.popFrame).link.lastSender = s.link.lastSender ∧ (s.popFrame).link.collisions = s.link.collisions ∧
    (s.popFrame).link.loss = s.link.loss ∧ (s.popFrame).link.intervalFrom = s.link.intervalFrom ∧
    (s.popFrame).link.rxq = s.link.rxq.tail :=
  ⟨rfl, rfl, rfl, rfl, rfl, rfl, rfl, rfl, rfl, rfl, rfl, rfl, rfl, rfl, rfl, rfl, rfl, rfl, rfl, rfl, rfl, rfl, rfl, rfl⟩

/-- The crane record changed, and nothing else. -/
@[simp] theorem State.withCrane_frame (s : State) (f : Crane → Crane) :
    (s.withCrane f).pending = s.pending ∧ (s.withCrane f).now = s.now ∧ (s.withCrane f).fresh = s.fresh ∧
    (s.withCrane f).stamp = s.stamp ∧ (s.withCrane f).link = s.link ∧ (s.withCrane f).mem = s.mem ∧
    (s.withCrane f).rep = s.rep ∧ (s.withCrane f).board = s.board ∧ (s.withCrane f).allot = s.allot ∧
    (s.withCrane f).profile = s.profile ∧ (s.withCrane f).dockMarks = s.dockMarks ∧ (s.withCrane f).bnd = s.bnd ∧
    (s.withCrane f).cons = s.cons ∧ (s.withCrane f).cfg = s.cfg ∧ (s.withCrane f).port = s.port ∧
    (s.withCrane f).seqr.runList = s.seqr.runList ∧ (s.withCrane f).seqr.awards = s.seqr.awards ∧
    (s.withCrane f).seqr.crane = f s.seqr.crane :=
  ⟨rfl, rfl, rfl, rfl, rfl, rfl, rfl, rfl, rfl, rfl, rfl, rfl, rfl, rfl, rfl, rfl, rfl, rfl⟩

/-- One allotment record put in place. -/
@[simp] theorem State.putAllot_frame (s : State) (a : AllotRecord) :
    (s.putAllot a).pending = s.pending ∧ (s.putAllot a).now = s.now ∧ (s.putAllot a).fresh = s.fresh ∧
    (s.putAllot a).stamp = s.stamp ∧ (s.putAllot a).link = s.link ∧ (s.putAllot a).mem = s.mem ∧
    (s.putAllot a).rep = s.rep ∧ (s.putAllot a).board = s.board ∧ (s.putAllot a).profile = s.profile ∧
    (s.putAllot a).dockMarks = s.dockMarks ∧ (s.putAllot a).bnd = s.bnd ∧ (s.putAllot a).seqr = s.seqr ∧
    (s.putAllot a).cons = s.cons ∧ (s.putAllot a).cfg = s.cfg ∧ (s.putAllot a).port = s.port ∧
    (s.putAllot a).allot = putKey AllotRecord.job a s.allot :=
  ⟨rfl, rfl, rfl, rfl, rfl, rfl, rfl, rfl, rfl, rfl, rfl, rfl, rfl, rfl, rfl, rfl⟩

/-- R50: a silence timer restarts. -/
@[simp] theorem State.restartSilence_frame (s : State) (n : Station) :
    (s.restartSilence n).pending = s.pending ∧ (s.restartSilence n).now = s.now ∧
    (s.restartSilence n).fresh = s.fresh ∧ (s.restartSilence n).stamp = s.stamp ∧
    (s.restartSilence n).link = s.link ∧ (s.restartSilence n).rep = s.rep ∧ (s.restartSilence n).board = s.board ∧
    (s.restartSilence n).allot = s.allot ∧ (s.restartSilence n).profile = s.profile ∧
    (s.restartSilence n).dockMarks = s.dockMarks ∧ (s.restartSilence n).bnd = s.bnd ∧
    (s.restartSilence n).seqr = s.seqr ∧ (s.restartSilence n).cons = s.cons ∧ (s.restartSilence n).cfg = s.cfg ∧
    (s.restartSilence n).port = s.port ∧ (s.restartSilence n).mem.st = s.mem.st ∧
    (s.restartSilence n).mem.cause = s.mem.cause ∧ (s.restartSilence n).mem.heard = s.mem.heard ∧
    (s.restartSilence n).mem.heardHash = s.mem.heardHash ∧ (s.restartSilence n).mem.founding = s.mem.founding ∧
    (s.restartSilence n).mem.listenTimer = s.mem.listenTimer ∧ (s.restartSilence n).mem.presence = s.mem.presence ∧
    (s.restartSilence n).mem.joinMark = s.mem.joinMark ∧ (s.restartSilence n).mem.leaveFrame = s.mem.leaveFrame ∧
    (s.restartSilence n).mem.lostMarks = s.mem.lostMarks ∧ (s.restartSilence n).mem.leaveMark = s.mem.leaveMark ∧
    (s.restartSilence n).mem.hash = s.mem.hash :=
  ⟨rfl, rfl, rfl, rfl, rfl, rfl, rfl, rfl, rfl, rfl, rfl, rfl, rfl, rfl, rfl, rfl, rfl, rfl, rfl, rfl, rfl, rfl, rfl, rfl, rfl, rfl, rfl⟩

/-- R178: the snapshot timer restarts. -/
@[simp] theorem State.restartSnap_frame (s : State) :
    (s.restartSnap).pending = s.pending ∧ (s.restartSnap).now = s.now ∧ (s.restartSnap).fresh = s.fresh ∧
    (s.restartSnap).stamp = s.stamp ∧ (s.restartSnap).link = s.link ∧ (s.restartSnap).mem = s.mem ∧
    (s.restartSnap).rep = s.rep ∧ (s.restartSnap).board = s.board ∧ (s.restartSnap).allot = s.allot ∧
    (s.restartSnap).profile = s.profile ∧ (s.restartSnap).dockMarks = s.dockMarks ∧ (s.restartSnap).bnd = s.bnd ∧
    (s.restartSnap).seqr = s.seqr ∧ (s.restartSnap).cfg = s.cfg ∧ (s.restartSnap).port = s.port ∧
    (s.restartSnap).cons.mismatch = s.cons.mismatch ∧ (s.restartSnap).cons.phase = s.cons.phase ∧
    (s.restartSnap).cons.candidates = s.cons.candidates ∧ (s.restartSnap).cons.donor = s.cons.donor ∧
    (s.restartSnap).cons.tryNo = s.cons.tryNo ∧ (s.restartSnap).cons.itemsApplied = s.cons.itemsApplied ∧
    (s.restartSnap).cons.serving = s.cons.serving ∧ (s.restartSnap).cons.sent = s.cons.sent ∧
    (s.restartSnap).cons.itemsSent = s.cons.itemsSent ∧ (s.restartSnap).cons.mark = s.cons.mark ∧
    (s.restartSnap).cons.snapTimer = .running (s.now + s.cfg.fourP) :=
  ⟨rfl, rfl, rfl, rfl, rfl, rfl, rfl, rfl, rfl, rfl, rfl, rfl, rfl, rfl, rfl, rfl, rfl, rfl, rfl, rfl, rfl, rfl, rfl, rfl, rfl, rfl⟩

/-- R50: the silence timers start. -/
@[simp] theorem State.startSilence_frame (s : State) :
    (s.startSilence).pending = s.pending ∧ (s.startSilence).now = s.now ∧ (s.startSilence).fresh = s.fresh ∧
    (s.startSilence).stamp = s.stamp ∧ (s.startSilence).link = s.link ∧ (s.startSilence).rep = s.rep ∧
    (s.startSilence).board = s.board ∧ (s.startSilence).allot = s.allot ∧ (s.startSilence).profile = s.profile ∧
    (s.startSilence).dockMarks = s.dockMarks ∧ (s.startSilence).bnd = s.bnd ∧ (s.startSilence).seqr = s.seqr ∧
    (s.startSilence).cons = s.cons ∧ (s.startSilence).cfg = s.cfg ∧ (s.startSilence).port = s.port ∧
    (s.startSilence).mem.st = s.mem.st ∧ (s.startSilence).mem.cause = s.mem.cause ∧
    (s.startSilence).mem.heard = s.mem.heard ∧ (s.startSilence).mem.heardHash = s.mem.heardHash ∧
    (s.startSilence).mem.founding = s.mem.founding ∧ (s.startSilence).mem.listenTimer = s.mem.listenTimer ∧
    (s.startSilence).mem.presence = s.mem.presence ∧ (s.startSilence).mem.joinMark = s.mem.joinMark ∧
    (s.startSilence).mem.leaveFrame = s.mem.leaveFrame ∧ (s.startSilence).mem.lostMarks = s.mem.lostMarks ∧
    (s.startSilence).mem.leaveMark = s.mem.leaveMark ∧ (s.startSilence).mem.hash = s.mem.hash :=
  ⟨rfl, rfl, rfl, rfl, rfl, rfl, rfl, rfl, rfl, rfl, rfl, rfl, rfl, rfl, rfl, rfl, rfl, rfl, rfl, rfl, rfl, rfl, rfl, rfl, rfl, rfl, rfl⟩

/-- R139: the answer mark GRANT. -/
@[simp] theorem State.markGrant_frame (s : State) (v : Nat) (p : Station) :
    (s.markGrant v p).pending = s.pending ∧ (s.markGrant v p).now = s.now ∧ (s.markGrant v p).fresh = s.fresh ∧
    (s.markGrant v p).link = s.link ∧ (s.markGrant v p).mem = s.mem ∧ (s.markGrant v p).rep = s.rep ∧
    (s.markGrant v p).board = s.board ∧ (s.markGrant v p).allot = s.allot ∧ (s.markGrant v p).profile = s.profile ∧
    (s.markGrant v p).dockMarks = s.dockMarks ∧ (s.markGrant v p).seqr = s.seqr ∧ (s.markGrant v p).cons = s.cons ∧
    (s.markGrant v p).cfg = s.cfg ∧ (s.markGrant v p).port = s.port ∧ (s.markGrant v p).bnd.ownAsk = s.bnd.ownAsk ∧
    (s.markGrant v p).bnd.askMark = s.bnd.askMark ∧ (s.markGrant v p).bnd.reAsk = s.bnd.reAsk ∧
    (s.markGrant v p).bnd.lastWaited = s.bnd.lastWaited ∧ (s.markGrant v p).bnd.resolveMarks = s.bnd.resolveMarks ∧
    (s.markGrant v p).bnd.partnerAsk = .granting v p ∧ (s.markGrant v p).bnd.answer = .grant v p s.stamp :=
  ⟨rfl, rfl, rfl, rfl, rfl, rfl, rfl, rfl, rfl, rfl, rfl, rfl, rfl, rfl, rfl, rfl, rfl, rfl, rfl, rfl, rfl⟩

/-- R139: the answer mark REFUSE. -/
@[simp] theorem State.markRefuse_frame (s : State) (v reason : Nat) (p : Station) :
    (s.markRefuse v reason p).pending = s.pending ∧ (s.markRefuse v reason p).now = s.now ∧
    (s.markRefuse v reason p).fresh = s.fresh ∧ (s.markRefuse v reason p).link = s.link ∧
    (s.markRefuse v reason p).mem = s.mem ∧ (s.markRefuse v reason p).rep = s.rep ∧
    (s.markRefuse v reason p).board = s.board ∧ (s.markRefuse v reason p).allot = s.allot ∧
    (s.markRefuse v reason p).profile = s.profile ∧ (s.markRefuse v reason p).dockMarks = s.dockMarks ∧
    (s.markRefuse v reason p).seqr = s.seqr ∧ (s.markRefuse v reason p).cons = s.cons ∧
    (s.markRefuse v reason p).cfg = s.cfg ∧ (s.markRefuse v reason p).port = s.port ∧
    (s.markRefuse v reason p).bnd.ownAsk = s.bnd.ownAsk ∧
    (s.markRefuse v reason p).bnd.partnerAsk = s.bnd.partnerAsk ∧
    (s.markRefuse v reason p).bnd.askMark = s.bnd.askMark ∧ (s.markRefuse v reason p).bnd.reAsk = s.bnd.reAsk ∧
    (s.markRefuse v reason p).bnd.lastWaited = s.bnd.lastWaited ∧
    (s.markRefuse v reason p).bnd.resolveMarks = s.bnd.resolveMarks ∧
    (s.markRefuse v reason p).bnd.answer = .refuse v reason p s.stamp :=
  ⟨rfl, rfl, rfl, rfl, rfl, rfl, rfl, rfl, rfl, rfl, rfl, rfl, rfl, rfl, rfl, rfl, rfl, rfl, rfl, rfl, rfl⟩

end Sys2Proof.Machine
end

