-- ==== Sys2Proof/Laws/Frames.lean ====
section
/-! SUPPORT. One frame lemma for each shared operation: every field that it keeps, whatever it does; and what computing
the touched profile classes gives (R106). -/

namespace Sys2Proof.Machine

/-- A fold keeps what every one of its steps keeps. -/
theorem foldl_keeps {σ α β : Type} (p : σ → β) (f : σ → α → σ) (h : ∀ s a, p (f s a) = p s) (l : List α) (s : σ) :
    p (l.foldl f s) = p s := by
  induction l generalizing s with
  | nil => rfl
  | cons a t ih => rw [List.foldl_cons, ih, h]

/-- R48: an offered DIGEST changes the transmit queue alone. -/
@[simp] theorem State.offerDigest_frame (s : State) :
    (s.offerDigest).pending = s.pending ∧ (s.offerDigest).now = s.now ∧ (s.offerDigest).fresh = s.fresh ∧
    (s.offerDigest).stamp = s.stamp ∧ (s.offerDigest).link.rxq = s.link.rxq ∧
    (s.offerDigest).link.line = s.link.line ∧ (s.offerDigest).link.ownSeq = s.link.ownSeq ∧
    (s.offerDigest).link.seqTable = s.link.seqTable ∧ (s.offerDigest).link.lastSender = s.link.lastSender ∧
    (s.offerDigest).link.collisions = s.link.collisions ∧ (s.offerDigest).link.loss = s.link.loss ∧
    (s.offerDigest).link.intervalFrom = s.link.intervalFrom ∧ (s.offerDigest).mem = s.mem ∧
    (s.offerDigest).rep = s.rep ∧ (s.offerDigest).board = s.board ∧ (s.offerDigest).allot = s.allot ∧
    (s.offerDigest).profile = s.profile ∧ (s.offerDigest).dockMarks = s.dockMarks ∧ (s.offerDigest).bnd = s.bnd ∧
    (s.offerDigest).seqr = s.seqr ∧ (s.offerDigest).cons = s.cons ∧ (s.offerDigest).cfg = s.cfg ∧
    (s.offerDigest).port = s.port := by
  unfold State.offerDigest; (repeat' split) <;> simp

/-- R48: so does a due DIGEST. -/
@[simp] theorem State.duedDigest_frame (s : State) :
    (s.duedDigest).pending = s.pending ∧ (s.duedDigest).now = s.now ∧ (s.duedDigest).fresh = s.fresh ∧
    (s.duedDigest).stamp = s.stamp ∧ (s.duedDigest).link.rxq = s.link.rxq ∧ (s.duedDigest).link.line = s.link.line ∧
    (s.duedDigest).link.ownSeq = s.link.ownSeq ∧ (s.duedDigest).link.seqTable = s.link.seqTable ∧
    (s.duedDigest).link.lastSender = s.link.lastSender ∧ (s.duedDigest).link.collisions = s.link.collisions ∧
    (s.duedDigest).link.loss = s.link.loss ∧ (s.duedDigest).link.intervalFrom = s.link.intervalFrom ∧
    (s.duedDigest).mem = s.mem ∧ (s.duedDigest).rep = s.rep ∧ (s.duedDigest).board = s.board ∧
    (s.duedDigest).allot = s.allot ∧ (s.duedDigest).profile = s.profile ∧ (s.duedDigest).dockMarks = s.dockMarks ∧
    (s.duedDigest).bnd = s.bnd ∧ (s.duedDigest).seqr = s.seqr ∧ (s.duedDigest).cons = s.cons ∧
    (s.duedDigest).cfg = s.cfg ∧ (s.duedDigest).port = s.port := by
  unfold State.duedDigest; split <;> simp

/-- R28: a withdrawal changes the transmit queue alone. -/
@[simp] theorem State.withdraw_frame (s : State) (p : TxFrame → Bool) :
    (s.withdraw p).pending = s.pending ∧ (s.withdraw p).now = s.now ∧ (s.withdraw p).fresh = s.fresh ∧
    (s.withdraw p).stamp = s.stamp ∧ (s.withdraw p).link.rxq = s.link.rxq ∧ (s.withdraw p).link.line = s.link.line ∧
    (s.withdraw p).link.ownSeq = s.link.ownSeq ∧ (s.withdraw p).link.seqTable = s.link.seqTable ∧
    (s.withdraw p).link.lastSender = s.link.lastSender ∧ (s.withdraw p).link.collisions = s.link.collisions ∧
    (s.withdraw p).link.loss = s.link.loss ∧ (s.withdraw p).link.intervalFrom = s.link.intervalFrom ∧
    (s.withdraw p).mem = s.mem ∧ (s.withdraw p).rep = s.rep ∧ (s.withdraw p).board = s.board ∧
    (s.withdraw p).allot = s.allot ∧ (s.withdraw p).profile = s.profile ∧ (s.withdraw p).dockMarks = s.dockMarks ∧
    (s.withdraw p).bnd = s.bnd ∧ (s.withdraw p).seqr = s.seqr ∧ (s.withdraw p).cons = s.cons ∧
    (s.withdraw p).cfg = s.cfg ∧ (s.withdraw p).port = s.port := by
  unfold State.withdraw; split <;> simp

/-- R165: a milestone changes the run list and takes an age. -/
@[simp] theorem State.milestone_frame (s : State) (id : JobId) (m detail : Nat) :
    (s.milestone id m detail).pending = s.pending ∧ (s.milestone id m detail).now = s.now ∧
    (s.milestone id m detail).fresh = s.fresh ∧ (s.milestone id m detail).link = s.link ∧
    (s.milestone id m detail).mem = s.mem ∧ (s.milestone id m detail).rep = s.rep ∧
    (s.milestone id m detail).board = s.board ∧ (s.milestone id m detail).allot = s.allot ∧
    (s.milestone id m detail).profile = s.profile ∧ (s.milestone id m detail).dockMarks = s.dockMarks ∧
    (s.milestone id m detail).bnd = s.bnd ∧ (s.milestone id m detail).seqr.awards = s.seqr.awards ∧
    (s.milestone id m detail).seqr.crane = s.seqr.crane ∧ (s.milestone id m detail).cons = s.cons ∧
    (s.milestone id m detail).cfg = s.cfg ∧ (s.milestone id m detail).port = s.port := by
  unfold State.milestone; split <;> simp [Sequencer.update]

/-- R167: a change of a run-list job changes the run list alone. -/
@[simp] theorem State.advance_frame (s : State) (id : JobId) (f : RunJob → RunJob) :
    (s.advance id f).pending = s.pending ∧ (s.advance id f).now = s.now ∧ (s.advance id f).fresh = s.fresh ∧
    (s.advance id f).stamp = s.stamp ∧ (s.advance id f).link = s.link ∧ (s.advance id f).mem = s.mem ∧
    (s.advance id f).rep = s.rep ∧ (s.advance id f).board = s.board ∧ (s.advance id f).allot = s.allot ∧
    (s.advance id f).profile = s.profile ∧ (s.advance id f).dockMarks = s.dockMarks ∧ (s.advance id f).bnd = s.bnd ∧
    (s.advance id f).seqr.awards = s.seqr.awards ∧ (s.advance id f).seqr.crane = s.seqr.crane ∧
    (s.advance id f).cons = s.cons ∧ (s.advance id f).cfg = s.cfg ∧ (s.advance id f).port = s.port := by
  unfold State.advance; split <;> simp [Sequencer.update]

/-- The milestone of a step is one of its job. -/
@[simp] theorem State.stepMilestone_frame (s : State) (st : Step) (m detail : Nat) :
    (s.stepMilestone st m detail).pending = s.pending ∧ (s.stepMilestone st m detail).now = s.now ∧
    (s.stepMilestone st m detail).fresh = s.fresh ∧ (s.stepMilestone st m detail).link = s.link ∧
    (s.stepMilestone st m detail).mem = s.mem ∧ (s.stepMilestone st m detail).rep = s.rep ∧
    (s.stepMilestone st m detail).board = s.board ∧ (s.stepMilestone st m detail).allot = s.allot ∧
    (s.stepMilestone st m detail).profile = s.profile ∧ (s.stepMilestone st m detail).dockMarks = s.dockMarks ∧
    (s.stepMilestone st m detail).bnd = s.bnd ∧ (s.stepMilestone st m detail).seqr.awards = s.seqr.awards ∧
    (s.stepMilestone st m detail).seqr.crane = s.seqr.crane ∧ (s.stepMilestone st m detail).cons = s.cons ∧
    (s.stepMilestone st m detail).cfg = s.cfg ∧ (s.stepMilestone st m detail).port = s.port := by
  unfold State.stepMilestone; split <;> simp

/-- R150: the judgement of heads changes the run list and takes ages. -/
@[simp] theorem State.judgeHead_frame (s : State) (n : Nat) :
    (s.judgeHead n).pending = s.pending ∧ (s.judgeHead n).now = s.now ∧ (s.judgeHead n).fresh = s.fresh ∧
    (s.judgeHead n).link = s.link ∧ (s.judgeHead n).mem = s.mem ∧ (s.judgeHead n).rep = s.rep ∧
    (s.judgeHead n).board = s.board ∧ (s.judgeHead n).allot = s.allot ∧ (s.judgeHead n).profile = s.profile ∧
    (s.judgeHead n).dockMarks = s.dockMarks ∧ (s.judgeHead n).bnd = s.bnd ∧
    (s.judgeHead n).seqr.awards = s.seqr.awards ∧ (s.judgeHead n).seqr.crane = s.seqr.crane ∧
    (s.judgeHead n).cons = s.cons ∧ (s.judgeHead n).cfg = s.cfg ∧ (s.judgeHead n).port = s.port := by
  induction n generalizing s with
  | zero => simp [State.judgeHead]
  | succ n ih =>
    unfold State.judgeHead
    split
    · split
      · simp [ih]
      · simp
    · simp

/-- R150: the judgement of heads changes the run list and takes ages. -/
@[simp] theorem State.judgeHeads_frame (s : State) :
    (s.judgeHeads).pending = s.pending ∧ (s.judgeHeads).now = s.now ∧ (s.judgeHeads).fresh = s.fresh ∧
    (s.judgeHeads).link = s.link ∧ (s.judgeHeads).mem = s.mem ∧ (s.judgeHeads).rep = s.rep ∧
    (s.judgeHeads).board = s.board ∧ (s.judgeHeads).allot = s.allot ∧ (s.judgeHeads).profile = s.profile ∧
    (s.judgeHeads).dockMarks = s.dockMarks ∧ (s.judgeHeads).bnd = s.bnd ∧
    (s.judgeHeads).seqr.awards = s.seqr.awards ∧ (s.judgeHeads).seqr.crane = s.seqr.crane ∧
    (s.judgeHeads).cons = s.cons ∧ (s.judgeHeads).cfg = s.cfg ∧ (s.judgeHeads).port = s.port := by
  simp [State.judgeHeads]

/-- R114: the estimates change in the run list alone. -/
@[simp] theorem State.reestimate_frame (s : State) :
    (s.reestimate).pending = s.pending ∧ (s.reestimate).now = s.now ∧ (s.reestimate).stamp = s.stamp ∧
    (s.reestimate).link = s.link ∧ (s.reestimate).mem = s.mem ∧ (s.reestimate).rep = s.rep ∧
    (s.reestimate).board = s.board ∧ (s.reestimate).allot = s.allot ∧ (s.reestimate).profile = s.profile ∧
    (s.reestimate).dockMarks = s.dockMarks ∧ (s.reestimate).bnd = s.bnd ∧
    (s.reestimate).seqr.awards = s.seqr.awards ∧ (s.reestimate).seqr.crane = s.seqr.crane ∧
    (s.reestimate).cons = s.cons ∧ (s.reestimate).cfg = s.cfg ∧ (s.reestimate).port = s.port := by
  unfold State.reestimate; split <;> simp

/-- R151: jobs that leave change the run list, and the steps that named them. -/
@[simp] theorem State.leaveRun_frame (s : State) (p : JobId → Bool) :
    (s.leaveRun p).pending = s.pending ∧ (s.leaveRun p).now = s.now ∧ (s.leaveRun p).stamp = s.stamp ∧
    (s.leaveRun p).link = s.link ∧ (s.leaveRun p).mem = s.mem ∧ (s.leaveRun p).rep = s.rep ∧
    (s.leaveRun p).board = s.board ∧ (s.leaveRun p).allot = s.allot ∧ (s.leaveRun p).profile = s.profile ∧
    (s.leaveRun p).dockMarks = s.dockMarks ∧ (s.leaveRun p).bnd = s.bnd ∧
    (s.leaveRun p).seqr.awards = s.seqr.awards ∧ (s.leaveRun p).seqr.crane.state = s.seqr.crane.state ∧
    (s.leaveRun p).seqr.crane.pos = s.seqr.crane.pos ∧ (s.leaveRun p).seqr.crane.level = s.seqr.crane.level ∧
    (s.leaveRun p).seqr.crane.load = s.seqr.crane.load ∧ (s.leaveRun p).seqr.crane.retry = s.seqr.crane.retry ∧
    (s.leaveRun p).seqr.crane.stall = s.seqr.crane.stall ∧ (s.leaveRun p).seqr.crane.nextId = s.seqr.crane.nextId ∧
    (s.leaveRun p).cons = s.cons ∧ (s.leaveRun p).cfg = s.cfg ∧ (s.leaveRun p).port = s.port := by
  unfold State.leaveRun; split <;> simp

/-- R149: an accepted job changes the run list. -/
@[simp] theorem State.insertRun_frame (s : State) (e : JobEntry) :
    (s.insertRun e).pending = s.pending ∧ (s.insertRun e).now = s.now ∧ (s.insertRun e).link = s.link ∧
    (s.insertRun e).mem = s.mem ∧ (s.insertRun e).rep = s.rep ∧ (s.insertRun e).board = s.board ∧
    (s.insertRun e).allot = s.allot ∧ (s.insertRun e).profile = s.profile ∧ (s.insertRun e).dockMarks = s.dockMarks ∧
    (s.insertRun e).bnd = s.bnd ∧ (s.insertRun e).seqr.awards = s.seqr.awards ∧
    (s.insertRun e).seqr.crane = s.seqr.crane ∧ (s.insertRun e).cons = s.cons ∧ (s.insertRun e).cfg = s.cfg ∧
    (s.insertRun e).port = s.port := by
  unfold State.insertRun; dsimp only
  (repeat' split) <;> simp

/-- Everything but the run list and the ages. -/
abbrev State.outsideRun (s : State) :=
  (s.pending, s.now, s.fresh, s.link, s.mem, s.rep, s.board, s.allot, s.profile, s.dockMarks, s.bnd, s.seqr.awards,
  s.seqr.crane, s.cons, s.cfg, s.port)

/-- R163: a surrender changes the run list, the steps and the retry count. -/
@[simp] theorem State.surrender_frame (s : State) :
    (s.surrender).pending = s.pending ∧ (s.surrender).now = s.now ∧ (s.surrender).fresh = s.fresh ∧
    (s.surrender).link = s.link ∧ (s.surrender).mem = s.mem ∧ (s.surrender).rep = s.rep ∧
    (s.surrender).board = s.board ∧ (s.surrender).allot = s.allot ∧ (s.surrender).profile = s.profile ∧
    (s.surrender).dockMarks = s.dockMarks ∧ (s.surrender).bnd = s.bnd ∧ (s.surrender).seqr.awards = s.seqr.awards ∧
    (s.surrender).seqr.crane.state = s.seqr.crane.state ∧ (s.surrender).seqr.crane.pos = s.seqr.crane.pos ∧
    (s.surrender).seqr.crane.level = s.seqr.crane.level ∧ (s.surrender).seqr.crane.load = s.seqr.crane.load ∧
    (s.surrender).seqr.crane.stall = s.seqr.crane.stall ∧ (s.surrender).seqr.crane.nextId = s.seqr.crane.nextId ∧
    (s.surrender).cons = s.cons ∧ (s.surrender).cfg = s.cfg ∧ (s.surrender).port = s.port := by
  have h := foldl_keeps State.outsideRun (State.surrenderJob (s.seqr.head.map RunJob.id))
    (by intro s r; unfold State.surrenderJob; split <;> simp [State.outsideRun]) s.seqr.runList s
  simp only [State.outsideRun, Prod.mk.injEq] at h
  simp [State.surrender, h]

/-- R28: a withdrawn BID changes the transmit queue alone. -/
@[simp] theorem State.withdrawBid_frame (s : State) (a : AllotRecord) :
    (s.withdrawBid a).pending = s.pending ∧ (s.withdrawBid a).now = s.now ∧ (s.withdrawBid a).fresh = s.fresh ∧
    (s.withdrawBid a).stamp = s.stamp ∧ (s.withdrawBid a).link.rxq = s.link.rxq ∧
    (s.withdrawBid a).link.line = s.link.line ∧ (s.withdrawBid a).link.ownSeq = s.link.ownSeq ∧
    (s.withdrawBid a).link.seqTable = s.link.seqTable ∧ (s.withdrawBid a).link.lastSender = s.link.lastSender ∧
    (s.withdrawBid a).link.collisions = s.link.collisions ∧ (s.withdrawBid a).link.loss = s.link.loss ∧
    (s.withdrawBid a).link.intervalFrom = s.link.intervalFrom ∧ (s.withdrawBid a).mem = s.mem ∧
    (s.withdrawBid a).rep = s.rep ∧ (s.withdrawBid a).board = s.board ∧ (s.withdrawBid a).allot = s.allot ∧
    (s.withdrawBid a).profile = s.profile ∧ (s.withdrawBid a).dockMarks = s.dockMarks ∧
    (s.withdrawBid a).bnd = s.bnd ∧ (s.withdrawBid a).seqr = s.seqr ∧ (s.withdrawBid a).cons = s.cons ∧
    (s.withdrawBid a).cfg = s.cfg ∧ (s.withdrawBid a).port = s.port := by
  unfold State.withdrawBid; split <;> simp

/-- R92: an offered AWARD changes the transmit queue and the pending awards. -/
@[simp] theorem State.offerAward_frame (s : State) (id : JobId) (attempt cost : Nat) (mode : AwardMode) :
    (s.offerAward id attempt cost mode).pending = s.pending ∧ (s.offerAward id attempt cost mode).now = s.now ∧
    (s.offerAward id attempt cost mode).fresh = s.fresh ∧ (s.offerAward id attempt cost mode).stamp = s.stamp ∧
    (s.offerAward id attempt cost mode).link.rxq = s.link.rxq ∧
    (s.offerAward id attempt cost mode).link.line = s.link.line ∧
    (s.offerAward id attempt cost mode).link.ownSeq = s.link.ownSeq ∧
    (s.offerAward id attempt cost mode).link.seqTable = s.link.seqTable ∧
    (s.offerAward id attempt cost mode).link.lastSender = s.link.lastSender ∧
    (s.offerAward id attempt cost mode).link.collisions = s.link.collisions ∧
    (s.offerAward id attempt cost mode).link.loss = s.link.loss ∧
    (s.offerAward id attempt cost mode).link.intervalFrom = s.link.intervalFrom ∧
    (s.offerAward id attempt cost mode).mem = s.mem ∧ (s.offerAward id attempt cost mode).rep = s.rep ∧
    (s.offerAward id attempt cost mode).board = s.board ∧ (s.offerAward id attempt cost mode).allot = s.allot ∧
    (s.offerAward id attempt cost mode).profile = s.profile ∧
    (s.offerAward id attempt cost mode).dockMarks = s.dockMarks ∧ (s.offerAward id attempt cost mode).bnd = s.bnd ∧
    (s.offerAward id attempt cost mode).seqr.runList = s.seqr.runList ∧
    (s.offerAward id attempt cost mode).seqr.crane = s.seqr.crane ∧
    (s.offerAward id attempt cost mode).cons = s.cons ∧ (s.offerAward id attempt cost mode).cfg = s.cfg ∧
    (s.offerAward id attempt cost mode).port = s.port := by
  unfold State.offerAward; split <;> simp

/-- R85: a record removed changes the records and the transmit queue. -/
@[simp] theorem State.dropAllot_frame (s : State) (id : JobId) :
    (s.dropAllot id).pending = s.pending ∧ (s.dropAllot id).now = s.now ∧ (s.dropAllot id).fresh = s.fresh ∧
    (s.dropAllot id).stamp = s.stamp ∧ (s.dropAllot id).link.rxq = s.link.rxq ∧
    (s.dropAllot id).link.line = s.link.line ∧ (s.dropAllot id).link.ownSeq = s.link.ownSeq ∧
    (s.dropAllot id).link.seqTable = s.link.seqTable ∧ (s.dropAllot id).link.lastSender = s.link.lastSender ∧
    (s.dropAllot id).link.collisions = s.link.collisions ∧ (s.dropAllot id).link.loss = s.link.loss ∧
    (s.dropAllot id).link.intervalFrom = s.link.intervalFrom ∧ (s.dropAllot id).mem = s.mem ∧
    (s.dropAllot id).rep = s.rep ∧ (s.dropAllot id).board = s.board ∧ (s.dropAllot id).profile = s.profile ∧
    (s.dropAllot id).dockMarks = s.dockMarks ∧ (s.dropAllot id).bnd = s.bnd ∧ (s.dropAllot id).seqr = s.seqr ∧
    (s.dropAllot id).cons = s.cons ∧ (s.dropAllot id).cfg = s.cfg ∧ (s.dropAllot id).port = s.port := by
  unfold State.dropAllot; split <;> simp

/-- R86: a window opened changes the records and the transmit queue. -/
@[simp] theorem State.openWindow_frame (s : State) (e : JobEntry) :
    (s.openWindow e).pending = s.pending ∧ (s.openWindow e).now = s.now ∧ (s.openWindow e).fresh = s.fresh ∧
    (s.openWindow e).stamp = s.stamp ∧ (s.openWindow e).link.rxq = s.link.rxq ∧
    (s.openWindow e).link.line = s.link.line ∧ (s.openWindow e).link.ownSeq = s.link.ownSeq ∧
    (s.openWindow e).link.seqTable = s.link.seqTable ∧ (s.openWindow e).link.lastSender = s.link.lastSender ∧
    (s.openWindow e).link.collisions = s.link.collisions ∧ (s.openWindow e).link.loss = s.link.loss ∧
    (s.openWindow e).link.intervalFrom = s.link.intervalFrom ∧ (s.openWindow e).mem = s.mem ∧
    (s.openWindow e).rep = s.rep ∧ (s.openWindow e).board = s.board ∧ (s.openWindow e).profile = s.profile ∧
    (s.openWindow e).dockMarks = s.dockMarks ∧ (s.openWindow e).bnd = s.bnd ∧ (s.openWindow e).seqr = s.seqr ∧
    (s.openWindow e).cons = s.cons ∧ (s.openWindow e).cfg = s.cfg ∧ (s.openWindow e).port = s.port := by
  unfold State.openWindow
  split
  · by_cases c : ((s.withdrawBid ‹_›).eligible e && (s.withdrawBid ‹_›).admits) = true
    · simp [c]
    · simp [c]
  · by_cases c : (s.eligible e && s.admits) = true
    · simp [c]
    · simp [c]

/-- R99: a record without a window changes the records alone. -/
@[simp] theorem State.openIdle_frame (s : State) (e : JobEntry) :
    (s.openIdle e).pending = s.pending ∧ (s.openIdle e).now = s.now ∧ (s.openIdle e).fresh = s.fresh ∧
    (s.openIdle e).link = s.link ∧ (s.openIdle e).mem = s.mem ∧ (s.openIdle e).rep = s.rep ∧
    (s.openIdle e).board = s.board ∧ (s.openIdle e).profile = s.profile ∧ (s.openIdle e).dockMarks = s.dockMarks ∧
    (s.openIdle e).bnd = s.bnd ∧ (s.openIdle e).seqr = s.seqr ∧ (s.openIdle e).cons = s.cons ∧
    (s.openIdle e).cfg = s.cfg ∧ (s.openIdle e).port = s.port := by
  unfold State.openIdle; try dsimp only
  split <;> simp

/-- R101: the custodian judged anew changes the records alone. -/
@[simp] theorem State.custodianChange_frame (s : State) (b : Bool) (e : JobEntry) :
    (s.custodianChange b e).pending = s.pending ∧ (s.custodianChange b e).now = s.now ∧
    (s.custodianChange b e).fresh = s.fresh ∧ (s.custodianChange b e).stamp = s.stamp ∧
    (s.custodianChange b e).link = s.link ∧ (s.custodianChange b e).mem = s.mem ∧
    (s.custodianChange b e).rep = s.rep ∧ (s.custodianChange b e).board = s.board ∧
    (s.custodianChange b e).profile = s.profile ∧ (s.custodianChange b e).dockMarks = s.dockMarks ∧
    (s.custodianChange b e).bnd = s.bnd ∧ (s.custodianChange b e).seqr = s.seqr ∧
    (s.custodianChange b e).cons = s.cons ∧ (s.custodianChange b e).cfg = s.cfg ∧
    (s.custodianChange b e).port = s.port := by
  unfold State.custodianChange; repeat' (first | split | dsimp only)
  all_goals simp

/-- R85: a record that follows its entry. -/
@[simp] theorem State.syncEntry_frame (s : State) (r : Replica) (e : JobEntry) :
    (State.syncEntry r s e).pending = s.pending ∧ (State.syncEntry r s e).now = s.now ∧
    (State.syncEntry r s e).fresh = s.fresh ∧ (State.syncEntry r s e).link.rxq = s.link.rxq ∧
    (State.syncEntry r s e).link.line = s.link.line ∧ (State.syncEntry r s e).link.ownSeq = s.link.ownSeq ∧
    (State.syncEntry r s e).link.seqTable = s.link.seqTable ∧
    (State.syncEntry r s e).link.lastSender = s.link.lastSender ∧
    (State.syncEntry r s e).link.collisions = s.link.collisions ∧ (State.syncEntry r s e).link.loss = s.link.loss ∧
    (State.syncEntry r s e).link.intervalFrom = s.link.intervalFrom ∧ (State.syncEntry r s e).mem = s.mem ∧
    (State.syncEntry r s e).rep = s.rep ∧ (State.syncEntry r s e).board = s.board ∧
    (State.syncEntry r s e).profile = s.profile ∧ (State.syncEntry r s e).dockMarks = s.dockMarks ∧
    (State.syncEntry r s e).bnd = s.bnd ∧ (State.syncEntry r s e).seqr = s.seqr ∧
    (State.syncEntry r s e).cons = s.cons ∧ (State.syncEntry r s e).cfg = s.cfg ∧
    (State.syncEntry r s e).port = s.port := by
  unfold State.syncEntry; repeat' split
  all_goals simp

/-- Everything but the allotment records, the transmit queue and the ages. -/
abbrev State.outsideAllot (s : State) :=
  (s.pending, s.now, s.fresh, s.link.rxq, s.link.line, s.link.ownSeq, s.link.seqTable, s.link.lastSender,
  s.link.collisions, s.link.loss, s.link.intervalFrom, s.mem, s.rep, s.board, s.profile, s.dockMarks, s.bnd, s.seqr,
  s.cons, s.cfg, s.port)

/-- R102: the records removed change themselves and the transmit queue. -/
@[simp] theorem State.clearAllot_frame (s : State) :
    (s.clearAllot).pending = s.pending ∧ (s.clearAllot).now = s.now ∧ (s.clearAllot).fresh = s.fresh ∧
    (s.clearAllot).link.rxq = s.link.rxq ∧ (s.clearAllot).link.line = s.link.line ∧
    (s.clearAllot).link.ownSeq = s.link.ownSeq ∧ (s.clearAllot).link.seqTable = s.link.seqTable ∧
    (s.clearAllot).link.lastSender = s.link.lastSender ∧ (s.clearAllot).link.collisions = s.link.collisions ∧
    (s.clearAllot).link.loss = s.link.loss ∧ (s.clearAllot).link.intervalFrom = s.link.intervalFrom ∧
    (s.clearAllot).mem = s.mem ∧ (s.clearAllot).rep = s.rep ∧ (s.clearAllot).board = s.board ∧
    (s.clearAllot).profile = s.profile ∧ (s.clearAllot).dockMarks = s.dockMarks ∧ (s.clearAllot).bnd = s.bnd ∧
    (s.clearAllot).seqr = s.seqr ∧ (s.clearAllot).cons = s.cons ∧ (s.clearAllot).cfg = s.cfg ∧
    (s.clearAllot).port = s.port := by
  have h := foldl_keeps State.outsideAllot State.dropAllot (by intro s a; simp [State.outsideAllot]) (s.allot.map AllotRecord.job) s
  simp only [State.outsideAllot, Prod.mk.injEq] at h
  simp [State.clearAllot, h]

/-- R85: the records that follow the board change themselves, the transmit queue and the ages. -/
@[simp] theorem State.syncAllot_frame (s : State) (r : Replica) :
    (s.syncAllot r).pending = s.pending ∧ (s.syncAllot r).now = s.now ∧ (s.syncAllot r).fresh = s.fresh ∧
    (s.syncAllot r).link.rxq = s.link.rxq ∧ (s.syncAllot r).link.line = s.link.line ∧
    (s.syncAllot r).link.ownSeq = s.link.ownSeq ∧ (s.syncAllot r).link.seqTable = s.link.seqTable ∧
    (s.syncAllot r).link.lastSender = s.link.lastSender ∧ (s.syncAllot r).link.collisions = s.link.collisions ∧
    (s.syncAllot r).link.loss = s.link.loss ∧ (s.syncAllot r).link.intervalFrom = s.link.intervalFrom ∧
    (s.syncAllot r).mem = s.mem ∧ (s.syncAllot r).rep = s.rep ∧ (s.syncAllot r).board = s.board ∧
    (s.syncAllot r).profile = s.profile ∧ (s.syncAllot r).dockMarks = s.dockMarks ∧ (s.syncAllot r).bnd = s.bnd ∧
    (s.syncAllot r).seqr = s.seqr ∧ (s.syncAllot r).cons = s.cons ∧ (s.syncAllot r).cfg = s.cfg ∧
    (s.syncAllot r).port = s.port := by
  unfold State.syncAllot
  split
  · have h (l : List JobId) := foldl_keeps State.outsideAllot State.dropAllot (by intro s a; simp [State.outsideAllot]) l s
    have k (l : List JobEntry) (s : State) := foldl_keeps State.outsideAllot (State.syncEntry r) (by intro s a; simp [State.outsideAllot]) l s
    simp only [State.outsideAllot, Prod.mk.injEq] at h k
    simp [h, k]
  · simp

/-- Everything but the allotment records. -/
abbrev State.outsideRecords (s : State) :=
  (s.pending, s.now, s.fresh, s.stamp, s.link, s.mem, s.rep, s.board, s.profile, s.dockMarks, s.bnd, s.seqr, s.cons,
  s.cfg, s.port)

/-- R103: the records made at a success. -/
@[simp] theorem State.rebuildAllot_frame (s : State) :
    (s.rebuildAllot).pending = s.pending ∧ (s.rebuildAllot).now = s.now ∧ (s.rebuildAllot).fresh = s.fresh ∧
    (s.rebuildAllot).stamp = s.stamp ∧ (s.rebuildAllot).link = s.link ∧ (s.rebuildAllot).mem = s.mem ∧
    (s.rebuildAllot).rep = s.rep ∧ (s.rebuildAllot).board = s.board ∧ (s.rebuildAllot).profile = s.profile ∧
    (s.rebuildAllot).dockMarks = s.dockMarks ∧ (s.rebuildAllot).bnd = s.bnd ∧ (s.rebuildAllot).seqr = s.seqr ∧
    (s.rebuildAllot).cons = s.cons ∧ (s.rebuildAllot).cfg = s.cfg ∧ (s.rebuildAllot).port = s.port := by
  have h := foldl_keeps State.outsideRecords (fun (s : State) (e : JobEntry) => s.putAllot
    { job := e.id, attempt := e.attempt, window := .closed, ownBid := .none
      timer := if s.isCustodian e.id then s.custodialTimer e else .none, mark := .none })
    (by intro s a; simp [State.outsideRecords]) (s.rep.jobs.filter fun e => e.state == .opened) s
  simp only [State.outsideRecords, Prod.mk.injEq] at h
  simp [State.rebuildAllot, h]

/-- Everything but the pending awards and the transmit queue. -/
abbrev State.outsideAwards (s : State) :=
  (s.pending, s.now, s.fresh, s.stamp, s.link.rxq, s.link.line, s.link.ownSeq, s.link.seqTable, s.link.lastSender,
  s.link.collisions, s.link.loss, s.link.intervalFrom, s.mem, s.rep, s.board, s.allot, s.profile, s.dockMarks, s.bnd,
  s.seqr.runList, s.seqr.crane, s.cons, s.cfg, s.port)

/-- R95: the chain claims change the pending awards and the transmit queue. -/
@[simp] theorem State.judgeChain_frame (s : State) :
    (s.judgeChain).pending = s.pending ∧ (s.judgeChain).now = s.now ∧ (s.judgeChain).fresh = s.fresh ∧
    (s.judgeChain).stamp = s.stamp ∧ (s.judgeChain).link.rxq = s.link.rxq ∧ (s.judgeChain).link.line = s.link.line ∧
    (s.judgeChain).link.ownSeq = s.link.ownSeq ∧ (s.judgeChain).link.seqTable = s.link.seqTable ∧
    (s.judgeChain).link.lastSender = s.link.lastSender ∧ (s.judgeChain).link.collisions = s.link.collisions ∧
    (s.judgeChain).link.loss = s.link.loss ∧ (s.judgeChain).link.intervalFrom = s.link.intervalFrom ∧
    (s.judgeChain).mem = s.mem ∧ (s.judgeChain).rep = s.rep ∧ (s.judgeChain).board = s.board ∧
    (s.judgeChain).allot = s.allot ∧ (s.judgeChain).profile = s.profile ∧ (s.judgeChain).dockMarks = s.dockMarks ∧
    (s.judgeChain).bnd = s.bnd ∧ (s.judgeChain).seqr.runList = s.seqr.runList ∧
    (s.judgeChain).seqr.crane = s.seqr.crane ∧ (s.judgeChain).cons = s.cons ∧ (s.judgeChain).cfg = s.cfg ∧
    (s.judgeChain).port = s.port := by
  have h := foldl_keeps State.outsideAwards (fun (s : State) (e : JobEntry) =>
    if s.chainClaims e then s.offerAward e.id 0 (s.cost e) .chain else s)
    (by intro s a; split <;> simp [State.outsideAwards]) (s.rep.jobs.filter fun e => e.state == .held) s
  simp only [State.outsideAwards, Prod.mk.injEq] at h
  simp [State.judgeChain, h]

/-- What follows an application changes the run list, the steps that named its jobs, the allotment records, the pending
awards and the transmit queue, and nothing else. -/
@[simp] theorem State.settle_frame (s : State) (b : State) :
    (s.settle b).pending = s.pending ∧ (s.settle b).now = s.now ∧ (s.settle b).link.rxq = s.link.rxq ∧
    (s.settle b).link.line = s.link.line ∧ (s.settle b).link.ownSeq = s.link.ownSeq ∧
    (s.settle b).link.seqTable = s.link.seqTable ∧ (s.settle b).link.lastSender = s.link.lastSender ∧
    (s.settle b).link.collisions = s.link.collisions ∧ (s.settle b).link.loss = s.link.loss ∧
    (s.settle b).link.intervalFrom = s.link.intervalFrom ∧ (s.settle b).mem = s.mem ∧ (s.settle b).rep = s.rep ∧
    (s.settle b).board = s.board ∧ (s.settle b).profile = s.profile ∧ (s.settle b).dockMarks = s.dockMarks ∧
    (s.settle b).bnd = s.bnd ∧ (s.settle b).seqr.crane.state = s.seqr.crane.state ∧
    (s.settle b).seqr.crane.pos = s.seqr.crane.pos ∧ (s.settle b).seqr.crane.level = s.seqr.crane.level ∧
    (s.settle b).seqr.crane.load = s.seqr.crane.load ∧ (s.settle b).seqr.crane.retry = s.seqr.crane.retry ∧
    (s.settle b).seqr.crane.stall = s.seqr.crane.stall ∧ (s.settle b).seqr.crane.nextId = s.seqr.crane.nextId ∧
    (s.settle b).cons = s.cons ∧ (s.settle b).cfg = s.cfg ∧ (s.settle b).port = s.port := by
  unfold State.settle; try dsimp only
  split <;> simp

/-- An application of the replica's part changes the replica, the sent marks and the notices. -/
@[simp] theorem State.rework_frame (s : State) (f : Rework → Rework) :
    (s.rework f).pending = s.pending ∧ (s.rework f).now = s.now ∧ (s.rework f).fresh = s.fresh ∧
    (s.rework f).stamp = s.stamp ∧ (s.rework f).link = s.link ∧ (s.rework f).mem = s.mem ∧
    (s.rework f).board = s.board ∧ (s.rework f).allot = s.allot ∧ (s.rework f).profile = s.profile ∧
    (s.rework f).dockMarks = s.dockMarks ∧ (s.rework f).bnd = s.bnd ∧ (s.rework f).seqr = s.seqr ∧
    (s.rework f).cons.mismatch = s.cons.mismatch ∧ (s.rework f).cons.phase = s.cons.phase ∧
    (s.rework f).cons.candidates = s.cons.candidates ∧ (s.rework f).cons.donor = s.cons.donor ∧
    (s.rework f).cons.tryNo = s.cons.tryNo ∧ (s.rework f).cons.itemsApplied = s.cons.itemsApplied ∧
    (s.rework f).cons.snapTimer = s.cons.snapTimer ∧ (s.rework f).cons.serving = s.cons.serving ∧
    (s.rework f).cons.itemsSent = s.cons.itemsSent ∧ (s.rework f).cons.mark = s.cons.mark ∧
    (s.rework f).cfg = s.cfg := by
  simp [State.rework]

/-- An application with what follows it. -/
@[simp] theorem State.applyRep_frame (s : State) (f : Rework → Rework) :
    (s.applyRep f).pending = s.pending ∧ (s.applyRep f).now = s.now ∧ (s.applyRep f).link.rxq = s.link.rxq ∧
    (s.applyRep f).link.line = s.link.line ∧ (s.applyRep f).link.ownSeq = s.link.ownSeq ∧
    (s.applyRep f).link.seqTable = s.link.seqTable ∧ (s.applyRep f).link.lastSender = s.link.lastSender ∧
    (s.applyRep f).link.collisions = s.link.collisions ∧ (s.applyRep f).link.loss = s.link.loss ∧
    (s.applyRep f).link.intervalFrom = s.link.intervalFrom ∧ (s.applyRep f).mem = s.mem ∧
    (s.applyRep f).board = s.board ∧ (s.applyRep f).profile = s.profile ∧ (s.applyRep f).dockMarks = s.dockMarks ∧
    (s.applyRep f).bnd = s.bnd ∧ (s.applyRep f).seqr.crane.state = s.seqr.crane.state ∧
    (s.applyRep f).seqr.crane.pos = s.seqr.crane.pos ∧ (s.applyRep f).seqr.crane.level = s.seqr.crane.level ∧
    (s.applyRep f).seqr.crane.load = s.seqr.crane.load ∧ (s.applyRep f).seqr.crane.retry = s.seqr.crane.retry ∧
    (s.applyRep f).seqr.crane.stall = s.seqr.crane.stall ∧ (s.applyRep f).seqr.crane.nextId = s.seqr.crane.nextId ∧
    (s.applyRep f).cons.mismatch = s.cons.mismatch ∧ (s.applyRep f).cons.phase = s.cons.phase ∧
    (s.applyRep f).cons.candidates = s.cons.candidates ∧ (s.applyRep f).cons.donor = s.cons.donor ∧
    (s.applyRep f).cons.tryNo = s.cons.tryNo ∧ (s.applyRep f).cons.itemsApplied = s.cons.itemsApplied ∧
    (s.applyRep f).cons.snapTimer = s.cons.snapTimer ∧ (s.applyRep f).cons.serving = s.cons.serving ∧
    (s.applyRep f).cons.itemsSent = s.cons.itemsSent ∧ (s.applyRep f).cons.mark = s.cons.mark ∧
    (s.applyRep f).cfg = s.cfg := by
  simp [State.applyRep]

/-- R140: a deferral judged changes the partner ask and the answer mark. -/
@[simp] theorem State.judgeDeferral_frame (s : State) :
    (s.judgeDeferral).pending = s.pending ∧ (s.judgeDeferral).now = s.now ∧ (s.judgeDeferral).fresh = s.fresh ∧
    (s.judgeDeferral).link = s.link ∧ (s.judgeDeferral).mem = s.mem ∧ (s.judgeDeferral).rep = s.rep ∧
    (s.judgeDeferral).board = s.board ∧ (s.judgeDeferral).allot = s.allot ∧ (s.judgeDeferral).profile = s.profile ∧
    (s.judgeDeferral).dockMarks = s.dockMarks ∧ (s.judgeDeferral).bnd.ownAsk = s.bnd.ownAsk ∧
    (s.judgeDeferral).bnd.askMark = s.bnd.askMark ∧ (s.judgeDeferral).bnd.reAsk = s.bnd.reAsk ∧
    (s.judgeDeferral).bnd.lastWaited = s.bnd.lastWaited ∧ (s.judgeDeferral).bnd.resolveMarks = s.bnd.resolveMarks ∧
    (s.judgeDeferral).seqr = s.seqr ∧ (s.judgeDeferral).cons = s.cons ∧ (s.judgeDeferral).cfg = s.cfg ∧
    (s.judgeDeferral).port = s.port := by
  unfold State.judgeDeferral; repeat' split
  all_goals simp

/-- R139: an ASK taken changes the partner ask and the answer mark. -/
@[simp] theorem State.takeAsk_frame (s : State) (b v : Nat) (p : Station) :
    (s.takeAsk b v p).pending = s.pending ∧ (s.takeAsk b v p).now = s.now ∧ (s.takeAsk b v p).fresh = s.fresh ∧
    (s.takeAsk b v p).link = s.link ∧ (s.takeAsk b v p).mem = s.mem ∧ (s.takeAsk b v p).rep = s.rep ∧
    (s.takeAsk b v p).board = s.board ∧ (s.takeAsk b v p).allot = s.allot ∧ (s.takeAsk b v p).profile = s.profile ∧
    (s.takeAsk b v p).dockMarks = s.dockMarks ∧ (s.takeAsk b v p).bnd.ownAsk = s.bnd.ownAsk ∧
    (s.takeAsk b v p).bnd.askMark = s.bnd.askMark ∧ (s.takeAsk b v p).bnd.reAsk = s.bnd.reAsk ∧
    (s.takeAsk b v p).bnd.lastWaited = s.bnd.lastWaited ∧ (s.takeAsk b v p).bnd.resolveMarks = s.bnd.resolveMarks ∧
    (s.takeAsk b v p).seqr = s.seqr ∧ (s.takeAsk b v p).cons = s.cons ∧ (s.takeAsk b v p).cfg = s.cfg ∧
    (s.takeAsk b v p).port = s.port := by
  unfold State.takeAsk; split
  · simp
  · (repeat' split) <;> simp

/-- R142: a BOUNDARY_WAIT is a notice, and marks its head job. -/
@[simp] theorem State.giveWait_frame (s : State) (v reason : Nat) :
    (s.giveWait v reason).pending = s.pending ∧ (s.giveWait v reason).now = s.now ∧
    (s.giveWait v reason).stamp = s.stamp ∧ (s.giveWait v reason).link = s.link ∧ (s.giveWait v reason).mem = s.mem ∧
    (s.giveWait v reason).rep = s.rep ∧ (s.giveWait v reason).board = s.board ∧
    (s.giveWait v reason).allot = s.allot ∧ (s.giveWait v reason).profile = s.profile ∧
    (s.giveWait v reason).dockMarks = s.dockMarks ∧ (s.giveWait v reason).bnd.ownAsk = s.bnd.ownAsk ∧
    (s.giveWait v reason).bnd.partnerAsk = s.bnd.partnerAsk ∧ (s.giveWait v reason).bnd.askMark = s.bnd.askMark ∧
    (s.giveWait v reason).bnd.answer = s.bnd.answer ∧ (s.giveWait v reason).bnd.reAsk = s.bnd.reAsk ∧
    (s.giveWait v reason).bnd.resolveMarks = s.bnd.resolveMarks ∧ (s.giveWait v reason).seqr = s.seqr ∧
    (s.giveWait v reason).cons = s.cons ∧ (s.giveWait v reason).cfg = s.cfg := by
  unfold State.giveWait; repeat' split
  all_goals simp

/-- R137: an ask judged changes the own ask, or gives a BOUNDARY_WAIT. -/
@[simp] theorem State.judgeAsk_frame (s : State) (r : RunJob) (act : StepAct) :
    (s.judgeAsk r act).pending = s.pending ∧ (s.judgeAsk r act).now = s.now ∧ (s.judgeAsk r act).link = s.link ∧
    (s.judgeAsk r act).mem = s.mem ∧ (s.judgeAsk r act).rep = s.rep ∧ (s.judgeAsk r act).board = s.board ∧
    (s.judgeAsk r act).allot = s.allot ∧ (s.judgeAsk r act).profile = s.profile ∧
    (s.judgeAsk r act).dockMarks = s.dockMarks ∧ (s.judgeAsk r act).bnd.partnerAsk = s.bnd.partnerAsk ∧
    (s.judgeAsk r act).bnd.answer = s.bnd.answer ∧ (s.judgeAsk r act).bnd.reAsk = s.bnd.reAsk ∧
    (s.judgeAsk r act).bnd.resolveMarks = s.bnd.resolveMarks ∧ (s.judgeAsk r act).seqr = s.seqr ∧
    (s.judgeAsk r act).cons = s.cons ∧ (s.judgeAsk r act).cfg = s.cfg := by
  unfold State.judgeAsk; repeat' split
  all_goals simp

/-- What follows a crane event changes the deferral, the run list's marks and the notices. -/
@[simp] theorem State.craneChanged_frame (s : State) (b : State) :
    (s.craneChanged b).pending = s.pending ∧ (s.craneChanged b).now = s.now ∧ (s.craneChanged b).fresh = s.fresh ∧
    (s.craneChanged b).link = s.link ∧ (s.craneChanged b).mem = s.mem ∧ (s.craneChanged b).rep = s.rep ∧
    (s.craneChanged b).board = s.board ∧ (s.craneChanged b).allot = s.allot ∧
    (s.craneChanged b).profile = s.profile ∧ (s.craneChanged b).dockMarks = s.dockMarks ∧
    (s.craneChanged b).bnd.ownAsk = s.bnd.ownAsk ∧ (s.craneChanged b).bnd.askMark = s.bnd.askMark ∧
    (s.craneChanged b).bnd.reAsk = s.bnd.reAsk ∧ (s.craneChanged b).bnd.lastWaited = s.bnd.lastWaited ∧
    (s.craneChanged b).bnd.resolveMarks = s.bnd.resolveMarks ∧ (s.craneChanged b).seqr.awards = s.seqr.awards ∧
    (s.craneChanged b).seqr.crane = s.seqr.crane ∧ (s.craneChanged b).cons = s.cons ∧
    (s.craneChanged b).cfg = s.cfg := by
  unfold State.craneChanged; try dsimp only
  split <;> simp

/-- R177: the end of a serve. -/
@[simp] theorem State.endServe_frame (s : State) :
    (s.endServe).pending = s.pending ∧ (s.endServe).now = s.now ∧ (s.endServe).fresh = s.fresh ∧
    (s.endServe).stamp = s.stamp ∧ (s.endServe).link.rxq = s.link.rxq ∧ (s.endServe).link.line = s.link.line ∧
    (s.endServe).link.ownSeq = s.link.ownSeq ∧ (s.endServe).link.seqTable = s.link.seqTable ∧
    (s.endServe).link.lastSender = s.link.lastSender ∧ (s.endServe).link.collisions = s.link.collisions ∧
    (s.endServe).link.loss = s.link.loss ∧ (s.endServe).link.intervalFrom = s.link.intervalFrom ∧
    (s.endServe).mem = s.mem ∧ (s.endServe).rep = s.rep ∧ (s.endServe).board = s.board ∧
    (s.endServe).allot = s.allot ∧ (s.endServe).profile = s.profile ∧ (s.endServe).dockMarks = s.dockMarks ∧
    (s.endServe).bnd = s.bnd ∧ (s.endServe).seqr = s.seqr ∧ (s.endServe).cons.mismatch = s.cons.mismatch ∧
    (s.endServe).cons.phase = s.cons.phase ∧ (s.endServe).cons.candidates = s.cons.candidates ∧
    (s.endServe).cons.donor = s.cons.donor ∧ (s.endServe).cons.tryNo = s.cons.tryNo ∧
    (s.endServe).cons.itemsApplied = s.cons.itemsApplied ∧ (s.endServe).cons.snapTimer = s.cons.snapTimer ∧
    (s.endServe).cons.itemsSent = s.cons.itemsSent ∧ (s.endServe).cfg = s.cfg ∧ (s.endServe).port = s.port := by
  unfold State.endServe; split <;> simp

/-- R172: an ask offered. -/
@[simp] theorem State.offerAsk_frame (s : State) :
    (s.offerAsk).pending = s.pending ∧ (s.offerAsk).now = s.now ∧ (s.offerAsk).fresh = s.fresh ∧
    (s.offerAsk).stamp = s.stamp ∧ (s.offerAsk).link.rxq = s.link.rxq ∧ (s.offerAsk).link.line = s.link.line ∧
    (s.offerAsk).link.ownSeq = s.link.ownSeq ∧ (s.offerAsk).link.seqTable = s.link.seqTable ∧
    (s.offerAsk).link.lastSender = s.link.lastSender ∧ (s.offerAsk).link.collisions = s.link.collisions ∧
    (s.offerAsk).link.loss = s.link.loss ∧ (s.offerAsk).link.intervalFrom = s.link.intervalFrom ∧
    (s.offerAsk).mem = s.mem ∧ (s.offerAsk).rep = s.rep ∧ (s.offerAsk).board = s.board ∧
    (s.offerAsk).allot = s.allot ∧ (s.offerAsk).profile = s.profile ∧ (s.offerAsk).dockMarks = s.dockMarks ∧
    (s.offerAsk).bnd = s.bnd ∧ (s.offerAsk).seqr = s.seqr ∧ (s.offerAsk).cons.mismatch = s.cons.mismatch ∧
    (s.offerAsk).cons.candidates = s.cons.candidates ∧ (s.offerAsk).cons.donor = s.cons.donor ∧
    (s.offerAsk).cons.tryNo = s.cons.tryNo ∧ (s.offerAsk).cons.itemsApplied = s.cons.itemsApplied ∧
    (s.offerAsk).cons.serving = s.cons.serving ∧ (s.offerAsk).cons.sent = s.cons.sent ∧
    (s.offerAsk).cons.itemsSent = s.cons.itemsSent ∧ (s.offerAsk).cons.mark = s.cons.mark ∧
    (s.offerAsk).cfg = s.cfg ∧ (s.offerAsk).port = s.port := by
  unfold State.offerAsk; try dsimp only
  split <;> simp

/-- R52: the LEAVE mark, and nothing else. -/
@[simp] theorem State.markLeave_frame (s : State) :
    (s.markLeave).pending = s.pending ∧ (s.markLeave).now = s.now ∧ (s.markLeave).fresh = s.fresh ∧
    (s.markLeave).stamp = s.stamp ∧ (s.markLeave).link = s.link ∧ (s.markLeave).mem.st = s.mem.st ∧
    (s.markLeave).mem.cause = s.mem.cause ∧ (s.markLeave).mem.heard = s.mem.heard ∧
    (s.markLeave).mem.heardHash = s.mem.heardHash ∧ (s.markLeave).mem.founding = s.mem.founding ∧
    (s.markLeave).mem.listenTimer = s.mem.listenTimer ∧ (s.markLeave).mem.presence = s.mem.presence ∧
    (s.markLeave).mem.silence = s.mem.silence ∧ (s.markLeave).mem.joinMark = s.mem.joinMark ∧
    (s.markLeave).mem.lostMarks = s.mem.lostMarks ∧ (s.markLeave).mem.leaveMark = s.mem.leaveMark ∧
    (s.markLeave).mem.hash = s.mem.hash ∧ (s.markLeave).rep = s.rep ∧ (s.markLeave).board = s.board ∧
    (s.markLeave).allot = s.allot ∧ (s.markLeave).profile = s.profile ∧ (s.markLeave).dockMarks = s.dockMarks ∧
    (s.markLeave).bnd = s.bnd ∧ (s.markLeave).seqr = s.seqr ∧ (s.markLeave).cons = s.cons ∧
    (s.markLeave).cfg = s.cfg ∧ (s.markLeave).port = s.port := by
  unfold State.markLeave; split <;> simp

/-- R106: the profile computed anew. -/
@[simp] theorem State.recomputeTouched_frame (s : State) :
    (s.recomputeTouched).pending = s.pending ∧ (s.recomputeTouched).now = s.now ∧
    (s.recomputeTouched).fresh = s.fresh ∧ (s.recomputeTouched).stamp = s.stamp ∧
    (s.recomputeTouched).link = s.link ∧ (s.recomputeTouched).mem = s.mem ∧ (s.recomputeTouched).rep = s.rep ∧
    (s.recomputeTouched).board = s.board ∧ (s.recomputeTouched).allot = s.allot ∧
    (s.recomputeTouched).dockMarks = s.dockMarks ∧ (s.recomputeTouched).bnd = s.bnd ∧
    (s.recomputeTouched).seqr = s.seqr ∧ (s.recomputeTouched).cons = s.cons ∧ (s.recomputeTouched).cfg = s.cfg ∧
    (s.recomputeTouched).port.asm = s.port.asm ∧ (s.recomputeTouched).port.discard = s.port.discard ∧
    (s.recomputeTouched).port.requests = s.port.requests ∧ (s.recomputeTouched).port.notices = s.port.notices ∧
    (s.recomputeTouched).port.noticePos = s.port.noticePos ∧
    (s.recomputeTouched).port.noticeOverflow = s.port.noticeOverflow ∧
    (s.recomputeTouched).port.requestOverflow = s.port.requestOverflow ∧
    (s.recomputeTouched).port.requestTorn = s.port.requestTorn ∧
    (s.recomputeTouched).port.stateChange = s.port.stateChange ∧ (s.recomputeTouched).port.locked = s.port.locked ∧
    (s.recomputeTouched).port.enable = s.port.enable ∧ (s.recomputeTouched).port.txn = s.port.txn ∧
    (s.recomputeTouched).port.firstByte = s.port.firstByte ∧ (s.recomputeTouched).port.captured = s.port.captured ∧
    (s.recomputeTouched).port.resetHeld = s.port.resetHeld ∧ (s.recomputeTouched).port.dataOut = s.port.dataOut := by
  unfold State.recomputeTouched; split <;> simp

/-- R106: the table with the rows of some classes computed anew, entry by entry. -/
theorem ConfigBlock.recompute_at (cfg : ConfigBlock) (classes : List Nat) (t : ProfileTable) {i : Nat} (h : i < 256) :
    (cfg.recompute classes t).at i = if i / 64 ∈ classes then cfg.profileEntry (i / 64) (i % 64) else t.at i := by
  simp [ConfigBlock.recompute, ProfileTable.at, h]

/-- R106: computing the touched classes, entry by entry: their rows from the parameters, the others as they stood. -/
theorem State.recomputeTouched_profile_at (s : State) {i : Nat} (h : i < 256) :
    (s.recomputeTouched).profile.at i =
      if i / 64 ∈ s.port.touched then s.cfg.profileEntry (i / 64) (i % 64) else s.profile.at i := by
  unfold State.recomputeTouched
  split
  · next e => simp [List.isEmpty_iff.1 e]
  · exact s.cfg.recompute_at _ _ h

/-- R106: afterwards no class is touched. -/
@[simp] theorem State.recomputeTouched_touched (s : State) : (s.recomputeTouched).port.touched = [] := by
  unfold State.recomputeTouched
  split
  · next e => exact List.isEmpty_iff.1 e
  · rfl

/-- R14: the records given up on entering DRAINING. -/
@[simp] theorem State.dropUnqueued_frame (s : State) :
    (s.dropUnqueued).pending = s.pending ∧ (s.dropUnqueued).now = s.now ∧ (s.dropUnqueued).fresh = s.fresh ∧
    (s.dropUnqueued).stamp = s.stamp ∧ (s.dropUnqueued).link = s.link ∧ (s.dropUnqueued).mem = s.mem ∧
    (s.dropUnqueued).rep = s.rep ∧ (s.dropUnqueued).board.seqCounter = s.board.seqCounter ∧
    (s.dropUnqueued).board.marks = s.board.marks ∧ (s.dropUnqueued).allot = s.allot ∧
    (s.dropUnqueued).profile = s.profile ∧ (s.dropUnqueued).dockMarks = s.dockMarks ∧ (s.dropUnqueued).bnd = s.bnd ∧
    (s.dropUnqueued).seqr = s.seqr ∧ (s.dropUnqueued).cons = s.cons ∧ (s.dropUnqueued).cfg = s.cfg := by
  simp [State.dropUnqueued]

/-- R154: a step given to the crane. -/
@[simp] theorem State.giveStep_frame (s : State) (st : Step) :
    (s.giveStep st).pending = s.pending ∧ (s.giveStep st).now = s.now ∧ (s.giveStep st).stamp = s.stamp ∧
    (s.giveStep st).link = s.link ∧ (s.giveStep st).mem = s.mem ∧ (s.giveStep st).rep = s.rep ∧
    (s.giveStep st).board = s.board ∧ (s.giveStep st).allot = s.allot ∧ (s.giveStep st).profile = s.profile ∧
    (s.giveStep st).dockMarks = s.dockMarks ∧ (s.giveStep st).bnd = s.bnd ∧
    (s.giveStep st).seqr.awards = s.seqr.awards ∧ (s.giveStep st).seqr.crane.pos = s.seqr.crane.pos ∧
    (s.giveStep st).seqr.crane.level = s.seqr.crane.level ∧ (s.giveStep st).seqr.crane.load = s.seqr.crane.load ∧
    (s.giveStep st).seqr.crane.stall = s.seqr.crane.stall ∧
    (s.giveStep st).seqr.crane.setAside = s.seqr.crane.setAside ∧ (s.giveStep st).cons = s.cons ∧
    (s.giveStep st).cfg = s.cfg := by
  simp [State.giveStep]

/-- R52: what `State.leaveWaits` says of the receive queue. -/
theorem State.leaveWaits_iff {s : State} :
    s.leaveWaits = true ↔ ∃ g ∈ s.link.rxq, g.sender = s.me ∧ g.kind = .leave := by
  simp [State.leaveWaits]

/-- R16, R25, R52: the conditions of a start, each in the statements' terms. -/
theorem State.mayStart_iff {s : State} {position : Nat} {idle : Bool} {f : TxFrame} :
    s.mayStart position idle f = true ↔ idle = true ∧ s.link.line = .free ∧ position = s.position ∧
      s.mem.st ≠ .offline ∧ s.mem.st ≠ .faulted ∧ s.link.rxq.length < Config.rxCapacity ∧
      (f.fill.needsEmpty = true → s.link.rxq = []) ∧ ∀ g ∈ s.link.rxq, ¬ (g.sender = s.me ∧ g.kind = .leave) := by
  have waits : s.leaveWaits = false ↔ ∀ g ∈ s.link.rxq, ¬ (g.sender = s.me ∧ g.kind = .leave) := by
    rw [← Bool.not_eq_true, State.leaveWaits_iff]; simp
  have empty : (!f.fill.needsEmpty || s.link.rxq.isEmpty) = true ↔ (f.fill.needsEmpty = true → s.link.rxq = []) := by
    cases f.fill.needsEmpty <;> simp
  simp only [State.mayStart, Bool.and_eq_true, empty, Bool.not_eq_true', waits, beq_iff_eq, bne_iff_ne, decide_eq_true_eq,
    and_assoc]

/-- R52: nothing starts while the own LEAVE waits to be applied. -/
theorem frameStart_of_leaveWaits {s : State} (h : s.leaveWaits = true) (position : Nat) (idle : Bool) :
    frameStart position idle s = s := by
  unfold frameStart; split <;> simp [State.mayStart, h]

/-- R51: a peer heard again. -/
@[simp] theorem State.peerHeard_frame (s : State) (n : Station) :
    (s.peerHeard n).pending = s.pending ∧ (s.peerHeard n).now = s.now ∧ (s.peerHeard n).fresh = s.fresh ∧
    (s.peerHeard n).stamp = s.stamp ∧ (s.peerHeard n).link.rxq = s.link.rxq ∧
    (s.peerHeard n).link.line = s.link.line ∧ (s.peerHeard n).link.ownSeq = s.link.ownSeq ∧
    (s.peerHeard n).link.seqTable = s.link.seqTable ∧ (s.peerHeard n).link.lastSender = s.link.lastSender ∧
    (s.peerHeard n).link.collisions = s.link.collisions ∧ (s.peerHeard n).link.loss = s.link.loss ∧
    (s.peerHeard n).link.intervalFrom = s.link.intervalFrom ∧ (s.peerHeard n).mem.st = s.mem.st ∧
    (s.peerHeard n).mem.cause = s.mem.cause ∧ (s.peerHeard n).mem.heard = s.mem.heard ∧
    (s.peerHeard n).mem.heardHash = s.mem.heardHash ∧ (s.peerHeard n).mem.founding = s.mem.founding ∧
    (s.peerHeard n).mem.listenTimer = s.mem.listenTimer ∧ (s.peerHeard n).mem.presence = s.mem.presence ∧
    (s.peerHeard n).mem.silence = s.mem.silence ∧ (s.peerHeard n).mem.joinMark = s.mem.joinMark ∧
    (s.peerHeard n).mem.leaveFrame = s.mem.leaveFrame ∧ (s.peerHeard n).mem.leaveMark = s.mem.leaveMark ∧
    (s.peerHeard n).mem.hash = s.mem.hash ∧ (s.peerHeard n).rep = s.rep ∧ (s.peerHeard n).board = s.board ∧
    (s.peerHeard n).allot = s.allot ∧ (s.peerHeard n).profile = s.profile ∧ (s.peerHeard n).dockMarks = s.dockMarks ∧
    (s.peerHeard n).bnd = s.bnd ∧ (s.peerHeard n).seqr = s.seqr ∧ (s.peerHeard n).cons = s.cons ∧
    (s.peerHeard n).cfg = s.cfg ∧ (s.peerHeard n).port = s.port := by
  simp [State.peerHeard]

end Sys2Proof.Machine
end

