-- ==== Sys2Proof/Laws/Judged.lean ====
section
/-! SUPPORT. What the Boundary Unit's judgements decide (R139, R140), what a milestone does to its job (R165), what a
surrender leaves of the run list (R163), the estimates computed anew (R114) and the head judged (R150), each said once. -/

namespace Sys2Proof.Machine

/-! ## Judgements of a partner ask -/

/-- R140: when the crane stands clear of a deferral. -/
theorem State.clearOf_iff (s : State) (v : Nat) : s.clearOf v = true ↔
    s.cfg.craneEnd.ownSide v (s.seqr.crane.pos / 8) = true ∧ ∀ st, s.seqr.crane.inFlight = some st →
      ∃ x l, st.act = .travel x l ∧ s.cfg.craneEnd.ownSide v (x / 8) = true := by
  unfold State.clearOf
  cases h : s.seqr.crane.inFlight with
  | none => simp [segment]
  | some st => cases ha : st.act <;> simp [segment, ha]

/-- R139, case 4: when the crane stands clear of an ask. -/
theorem State.clearNow_iff (s : State) (v : Nat) : s.clearNow v = true ↔
    s.cfg.craneEnd.ownSide v (s.seqr.crane.pos / 8) = true ∧ ∀ st x l, s.seqr.crane.inFlight = some st →
      st.act = .travel x l → s.cfg.craneEnd.ownSide v (x / 8) = true := by
  unfold State.clearNow Crane.start
  cases h : s.seqr.crane.inFlight with
  | none => simp [segment, Crane.point]
  | some st =>
    simp only [Option.some.injEq, segment, Bool.and_eq_true]
    refine and_congr_right fun here => ⟨fun aim st' x l e ha => ?_, fun all => ?_⟩
    · subst e
      simpa [ha] using aim
    · cases ha : st.act with
      | travel x l => exact all st x l rfl ha
      | _ => exact here

/-- R139, R140: a crane that is not clear now is not clear of the deferral either. -/
theorem State.clearOf_of_clearNow {s : State} {v : Nat} (h : s.clearNow v = false) : s.clearOf v = false := by
  unfold State.clearNow Crane.start at h
  unfold State.clearOf
  cases hf : s.seqr.crane.inFlight with
  | none => simpa [hf, Crane.point] using h
  | some st => cases ha : st.act <;> simp_all [Crane.point]

/-- R139, R140: the crane states that make it unable to yield. -/
theorem CraneState.unable_iff (c : CraneState) : c.unable = true ↔
    c = .unknown ∨ c = .stalled ∨ c = .manual ∨ c = .outOfService := by cases c <;> decide

/-- R139: the value does not move the boundary toward the station: STALE. -/
theorem CraneEnd.yieldsTo_eq_false (e : CraneEnd) (b v : Nat) :
    e.yieldsTo b v = false ↔ if e = .high then v ≤ b else b ≤ v := by
  cases e <;> simp [CraneEnd.yieldsTo]

/-- R140: a deferral judged again. -/
theorem State.judgeDeferral_judged (s : State) : (s.judgeDeferral).deferralJudged s.bnd := by
  intro v p h
  have frame : s.judgeDeferral.seqr = s.seqr ∧ s.judgeDeferral.cfg = s.cfg := by simp
  simp only [frame, ← CraneState.unable_iff, ← State.clearOf_iff]
  refine ⟨fun unable => ⟨s.stamp, ?_⟩, fun able clear => ⟨s.stamp, ?_⟩, fun able near => ?_⟩
  · simp [State.judgeDeferral, State.markRefuse, refuseUnable, h, unable]
  · simp [State.judgeDeferral, State.markGrant, h, able, clear]
  · simp [State.judgeDeferral, h, able, near]

/-- R140: without a deferral nothing is judged. -/
theorem State.judgeDeferral_of_not {s : State} (h : ∀ v p, s.bnd.partnerAsk ≠ .deferred v p) : s.judgeDeferral = s := by
  unfold State.judgeDeferral
  split
  · next v p e => exact absurd e (h v p)
  · rfl

/-- R139: an ASK taken is judged in its order. -/
theorem State.takeAsk_judged (s : State) (v : Nat) (asker : Station) :
    s.askJudged v asker s.stamp s.bnd (s.takeAsk (orZero s.boundary) v asker).bnd := by
  have judged (own : ∀ w p, s.bnd.ownAsk ≠ .waiting w p) : s.takeAsk (orZero s.boundary) v asker =
      if !s.cfg.craneEnd.yieldsTo (orZero s.boundary) v then s.markRefuse v refuseStale asker
      else if s.seqr.crane.state.unable || !s.cfg.craneEnd.ownSide (orZero s.boundary) (segment s.seqr.crane.pos) then
        s.markRefuse v refuseUnable asker
      else if s.clearNow v then s.markGrant v asker
      else State.judgeDeferral { s with bnd.partnerAsk := .deferred v asker } := by
    unfold State.takeAsk
    split
    · next w p e => exact absurd e (own w p)
    · rfl
  have apart {w : ¬ ∃ w p, s.bnd.ownAsk = .waiting w p} : ∀ x p, s.bnd.ownAsk ≠ .waiting x p :=
    fun x p e => w ⟨x, p, e⟩
  refine ⟨?_, fun w stale => ?_, fun w fresh unable => ?_, fun w fresh able clear => ?_, fun w fresh able near => ?_⟩
  · rintro ⟨w, p, e⟩
    simp [State.takeAsk, e, State.markRefuse, refuseCrossing]
  · simp [judged (apart (w := w)), (CraneEnd.yieldsTo_eq_false ..).2 stale, State.markRefuse, refuseStale]
  all_goals
    rw [← CraneEnd.yieldsTo_eq_false, Bool.not_eq_false] at fresh
  · rw [← CraneState.unable_iff] at unable
    rcases unable with u | u <;>
      simp [judged (apart (w := w)), fresh, State.markRefuse, refuseUnable, segment, u]
  all_goals
    rw [← CraneState.unable_iff, not_or, Bool.not_eq_true, Bool.not_eq_false] at able
  · rw [← State.clearNow_iff] at clear
    simp [judged (apart (w := w)), fresh, segment, able.1, able.2, clear, State.markGrant]
  · rw [← State.clearNow_iff, Bool.not_eq_true] at near
    have stands : State.clearOf { s with bnd.partnerAsk := .deferred v asker } v = false := State.clearOf_of_clearNow near
    simp [judged (apart (w := w)), fresh, segment, able.1, able.2, near, State.judgeDeferral, stands]

/-! ## Milestones -/

/-- R165: a milestone set for a job without a final one. -/
theorem RunJob.mark_setsMark {r : RunJob} (h : r.finalSent = false) (m detail stamp : Nat) :
    r.setsMark (r.mark m detail stamp) m detail := by
  unfold RunJob.setsMark RunJob.mark
  simp only [h, Bool.false_eq_true, if_false]
  split <;> exact ⟨rfl, stamp, rfl⟩

/-- R165: a final one moves it to FINISHING. -/
theorem RunJob.mark_setsFinal {r : RunJob} (h : r.finalSent = false) {m : Nat} (final : 2 < m) (detail stamp : Nat) :
    r.setsFinal (r.mark m detail stamp) m detail := by
  refine ⟨r.mark_setsMark h m detail stamp, ?_⟩
  have low : ¬ m ≤ msPicked := by simpa [msPicked] using final
  simp [RunJob.mark, h, low]

/-- R165: no further milestone is set after a final one. -/
theorem RunJob.mark_of_final {r : RunJob} (h : r.finalSent = true) (m detail stamp : Nat) : r.mark m detail stamp = r := by
  simp [RunJob.mark, h]

/-! ## Surrender -/

/-- What the milestones of a surrender, set for the jobs `l`, do to each job of the run list. -/
structure Surrenders (head : Option JobId) (l : List RunJob) (f : RunJob → RunJob) : Prop where
  id (y : RunJob) : (f y).id = y.id
  final (y : RunJob) : y.finalSent = true → f y = y
  marked (y : RunJob) (m : Nat) : y.finalSent = false → (∃ r ∈ l, r.id = y.id) →
    (∀ r ∈ l, r.id = y.id → surrenderOf head r = some m) → ∃ n, f y = y.mark m 0 n
  ends (y : RunJob) : (∃ r ∈ l, r.id = y.id ∧ (surrenderOf head r).isSome = true) → (f y).finalSent = true

/-- R163: the milestone of a surrender is a final one. -/
theorem surrenderOf_final {head : Option JobId} {r : RunJob} {m : Nat} (h : surrenderOf head r = some m) : 2 < m := by
  unfold surrenderOf at h
  repeat' split at h
  · simp at h
  · simp only [msStranded, Option.some.injEq] at h; omega
  · simp only [msReleased, Option.some.injEq] at h; omega

/-- R163: one job's milestone, then those of the jobs behind it. -/
theorem Surrenders.cons {head : Option JobId} {r : RunJob} {l : List RunJob} {f : RunJob → RunJob}
    (h : Surrenders head l f) {m : Nat} (hm : surrenderOf head r = some m) (n : Nat) :
    Surrenders head (r :: l) fun y => f (if y.id == r.id then y.mark m 0 n else y) := by
  have fin := surrenderOf_final hm
  have marked (y : RunJob) (hy : y.finalSent = false) : (y.mark m 0 n).finalSent = true :=
    (y.mark_setsFinal hy fin 0 n).2.2.1
  refine ⟨fun y => ?_, fun y hy => ?_, fun y k hy some all => ?_, fun y hy => ?_⟩
  · rw [h.id]
    by_cases hf : y.finalSent = true
    · simp [RunJob.mark_of_final hf]
    · split
      · exact (y.mark_setsFinal (by simpa using hf) fin 0 n).1.1
      · rfl
  · simp [RunJob.mark_of_final hy, h.final y hy]
  · by_cases same : y.id = r.id
    · have : m = k := by
        have := all r List.mem_cons_self same.symm
        simpa [hm] using this
      subst this
      exact ⟨n, by simp [same, h.final _ (marked y hy)]⟩
    · obtain ⟨x, hx, e⟩ := some
      rcases List.mem_cons.1 hx with rfl | hx
      · exact absurd e.symm same
      · simpa [same] using h.marked y k hy ⟨x, hx, e⟩ fun z hz => all z (List.mem_cons_of_mem _ hz)
  · by_cases hf : y.finalSent = true
    · simp [RunJob.mark_of_final hf, h.final y hf, hf]
    · by_cases same : y.id = r.id
      · simp [same, h.final _ (marked y (by simpa using hf)), marked y (by simpa using hf)]
      · obtain ⟨x, hx, e, some⟩ := hy
        rcases List.mem_cons.1 hx with rfl | hx
        · exact absurd e.symm same
        · simpa [same] using h.ends y ⟨x, hx, e, some⟩

/-- R163: the milestones of a surrender in list order. -/
theorem State.surrenderJobs_spec (head : Option JobId) (l : List RunJob) (s : State) (live : s.mem.st ≠ .faulted) :
    ∃ f, Surrenders head l f ∧
      (l.foldl (State.surrenderJob head) s).seqr.runList = s.seqr.runList.map f := by
  induction l generalizing s with
  | nil =>
    have no (y : RunJob) (p : RunJob → Prop) : ¬ ∃ r ∈ ([] : List RunJob), r.id = y.id ∧ p r := by simp
    exact ⟨fun y => y, ⟨fun _ => rfl, fun _ _ => rfl, fun y _ _ h => (by simp at h), fun y h => (no y _ h).elim⟩, by simp⟩
  | cons r l ih =>
    rw [List.foldl_cons]
    cases hm : surrenderOf head r with
    | none =>
      have same : State.surrenderJob head s r = s := by simp [State.surrenderJob, hm]
      obtain ⟨f, h, e⟩ := ih s live
      rw [same]
      refine ⟨f, ⟨h.id, h.final, fun y m hy some all => ?_, fun y hy => ?_⟩, e⟩
      · obtain ⟨x, hx, e⟩ := some
        rcases List.mem_cons.1 hx with rfl | hx
        · exact absurd (all x List.mem_cons_self e) (by simp [hm])
        · exact h.marked y m hy ⟨x, hx, e⟩ fun z hz => all z (List.mem_cons_of_mem _ hz)
      · obtain ⟨x, hx, e, some⟩ := hy
        rcases List.mem_cons.1 hx with rfl | hx
        · simp [hm] at some
        · exact h.ends y ⟨x, hx, e, some⟩
    | some m =>
      have set : State.surrenderJob head s r = s.milestone r.id m 0 := by simp [State.surrenderJob, hm]
      have list : (s.milestone r.id m 0).seqr.runList =
          s.seqr.runList.map fun y => if y.id == r.id then y.mark m 0 s.stamp else y := by
        simp [State.milestone, live, Sequencer.update]
      obtain ⟨f, h, e⟩ := ih (s.milestone r.id m 0) (by simpa using live)
      exact ⟨_, h.cons hm s.stamp, by rw [set, e, list, List.map_map]; rfl⟩

/-- R163: what a surrender leaves of the run list. -/
theorem State.surrender_surrendered (s : State) : s.surrendered s.surrender := by
  have list : s.surrender.seqr.runList =
      (s.seqr.runList.foldl (State.surrenderJob (s.seqr.head.map RunJob.id)) s).seqr.runList := rfl
  by_cases dead : s.mem.st = .faulted
  · have stays (l : List RunJob) (h : Option JobId) : l.foldl (State.surrenderJob h) s = s := by
      induction l with
      | nil => rfl
      | cons r l ih =>
        have : State.surrenderJob h s r = s := by unfold State.surrenderJob; split <;> simp [State.milestone, dead]
        rw [List.foldl_cons, this, ih]
    rw [stays] at list
    exact ⟨by rw [list], fun _ => list, fun live => absurd dead live⟩
  · obtain ⟨f, h, e⟩ := State.surrenderJobs_spec (s.seqr.head.map RunJob.id) s.seqr.runList s dead
    rw [e] at list
    have mem {x : RunJob} (hx : x ∈ s.seqr.runList) : f x ∈ s.surrender.seqr.runList := list ▸ List.mem_map_of_mem hx
    have due {x : RunJob} (hx : x.finalSent = false) : surrenderOf (s.seqr.head.map RunJob.id) x =
        some (if s.seqr.head.map RunJob.id = some x.id ∧ x.loaded = true then 5 else 6) := by
      unfold surrenderOf
      by_cases c : s.seqr.head.map RunJob.id = some x.id ∧ x.loaded = true
      · simp [hx, c.1, c.2, msStranded]
      · have : ((s.seqr.head.map RunJob.id) == some x.id && x.loaded) = false := by
          rw [Bool.and_eq_false_imp]
          intro a
          simpa using fun b => c ⟨by simpa using a, b⟩
        simp only [hx, this, Bool.false_eq_true, if_false, if_neg c, msReleased]
    refine ⟨?_, fun d => absurd d dead, fun _ => ⟨?_, ?_⟩⟩
    · rw [list, List.map_map]
      exact List.map_congr_left fun y _ => h.id y
    · intro y hy
      rw [list] at hy
      obtain ⟨x, hx, rfl⟩ := List.mem_map.1 hy
      by_cases hf : x.finalSent = true
      · rw [h.final x hf, hf]
      · exact h.ends x ⟨x, hx, rfl, by simp [due (by simpa using hf)]⟩
    · intro x hx alone
      refine ⟨fun hf => ⟨f x, mem hx, ?_⟩, fun hf => ⟨f x, mem hx, by rw [h.final x hf]⟩⟩
      obtain ⟨n, e⟩ := h.marked x _ hf ⟨x, hx, rfl⟩ fun r hr same => by rw [alone r hr same]; exact due hf
      rw [e]
      exact x.mark_setsFinal hf (by split <;> decide) 0 n

/-! ## Remaining estimates and the head -/

/-- R114: a remaining estimate depends on the phase and the id of its job, not on the estimate held. -/
theorem State.remaining_held (s : State) (start : Option Point) (r : RunJob) (n : Nat) :
    s.remaining start { r with remaining := n } = s.remaining start r := rfl

/-- R114: what `State.estimates` puts at each place of the list. -/
theorem State.estimates_place (s : State) (l : List RunJob) : ∀ (head : Bool) (prev : Option Point) (fresh : Nat)
    (pre : List RunJob) (r : RunJob) (post : List RunJob) (n : Nat),
    (s.estimates head prev fresh l).2 = pre ++ r :: post →
    s.remaining (if head = false ∧ ∀ x ∈ pre, x.phase = .finishing then some s.seqr.crane.start
      else match pre.getLast? with
        | some x => (s.rep.entry x.id).map fun e => e.job.dest
        | none => prev) r = some n →
    r.remaining = n := by
  induction l with
  | nil => intro head prev fresh pre r post n h; cases pre <;> simp [State.estimates] at h
  | cons a t ih =>
    intro head prev fresh pre r post n h hr
    obtain ⟨m, f, h1, h2⟩ : ∃ m f, (s.estimates head prev fresh (a :: t)).2 = { a with remaining := m } ::
        (s.estimates (head || a.phase != .finishing) ((s.rep.entry a.id).map fun e => e.job.dest) f t).2 ∧
        ∀ k, s.remaining (if head then prev else some s.seqr.crane.start) a = some k → m = k := by
      simp only [State.estimates]
      split
      · rename_i k hk; exact ⟨k, fresh, rfl, fun q hq => by simp [hk] at hq; exact hq⟩
      · rename_i hk; exact ⟨_, fresh + 1, rfl, fun q hq => by simp [hk] at hq⟩
    rw [h1] at h
    cases pre with
    | nil =>
      simp only [List.nil_append, List.cons.injEq] at h
      obtain ⟨rfl, _⟩ := h
      refine h2 n ?_
      rw [State.remaining_held] at hr
      cases head <;> simpa using hr
    | cons p ps =>
      simp only [List.cons_append, List.cons.injEq] at h
      obtain ⟨rfl, h⟩ := h
      refine ih _ _ _ ps r post n h ?_
      rw [← hr]
      congr 1
      cases head <;> by_cases hp : a.phase = .finishing <;> cases hl : ps.getLast? <;>
        simp_all [List.getLast?_cons]

/-- R114: outside FAULTED the estimates computed anew are `State.estimated`. -/
theorem State.reestimate_estimated (s : State) (h : s.mem.st ≠ .faulted) : s.reestimate.estimated := by
  intro pre r post n hl hr
  simp only [State.reestimate, beq_iff_eq, h, if_false] at hl hr
  refine s.estimates_place s.seqr.runList false none s.fresh pre r post n hl ?_
  rw [← hr]
  show _ = s.remaining _ r
  congr 1
  by_cases hp : ∀ x ∈ pre, x.phase = .finishing
  · rw [if_pos ⟨rfl, hp⟩, if_pos hp]
  · rw [if_neg fun h => hp h.2, if_neg hp]
    cases pre.getLast? <;> rfl

/-- R150: a list in which no head was given up. -/
theorem State.givenUp_refl (t : State) (l : List RunJob) : t.givenUp l l :=
  ⟨rfl, fun _ _ _ hx hy => .inl (Option.some.inj (hy.symm.trans hx))⟩

/-- R150: the judgement of heads gives up blocked heads and changes no other job. -/
theorem State.judgeHead_givenUp (n : Nat) : ∀ s : State, s.givenUp s.seqr.runList (s.judgeHead n).seqr.runList := by
  induction n with
  | zero => intro s; exact s.givenUp_refl _
  | succ n ih =>
    intro s
    unfold State.judgeHead
    split
    · rename_i r hr
      split
      · rename_i c
        have c : s.mem.st ≠ .faulted ∧ s.blocked r = true := by simp at c; exact c.1
        have mem := List.mem_of_find?_eq_some hr
        have h := ih (s.milestone r.id msReleased 0)
        generalize ((s.milestone r.id msReleased 0).judgeHead n).seqr.runList = m at h ⊢
        simp only [State.givenUp, State.milestone, beq_iff_eq, c.1, if_false, Sequencer.update, List.length_map,
          List.getElem?_map, List.mem_map] at h
        refine ⟨h.1, fun i x y hx hy => ?_⟩
        have hxy := h.2 i _ y (congrArg _ hx) hy
        dsimp only at hxy
        -- A job marked now is FINISHING, so it blocks no more.
        have source : ∀ z, (∃ a ∈ s.seqr.runList, (if a.id = r.id then a.mark msReleased 0 s.stamp else a) = z) →
            s.blocked z = true → z ∈ s.seqr.runList := by
          rintro z ⟨a, ha, rfl⟩ hz
          by_cases same : a.id = r.id
          · cases sent : a.finalSent with
            | true => rw [if_pos same, RunJob.mark_of_final sent]; exact ha
            | false =>
              rw [if_pos same] at hz
              simp [State.blocked, (RunJob.mark_setsFinal sent (by decide : 2 < msReleased) 0 s.stamp).2.1] at hz
          · rw [if_neg same]; exact ha
        have marked : (if x.id = r.id then x.mark msReleased 0 s.stamp else x) = x ∨
            (x.id = r.id ∧ x.finalSent = false ∧
              (if x.id = r.id then x.mark msReleased 0 s.stamp else x) = x.mark msReleased 0 s.stamp) := by
          by_cases same : x.id = r.id
          · cases sent : x.finalSent with
            | true => left; rw [if_pos same, RunJob.mark_of_final sent]
            | false => right; exact ⟨same, rfl, if_pos same⟩
          · left; rw [if_neg same]
        rcases marked with e | ⟨same, sent, e⟩
        · rw [e] at hxy
          refine hxy.imp id fun ⟨f, z, hz, hid, hb⟩ => ⟨f, z, source z hz hb, hid, hb⟩
        · rw [e] at hxy
          refine .inr ⟨?_, r, mem, same.symm, c.2⟩
          have first := RunJob.mark_setsFinal sent (by decide : 2 < msReleased) 0 s.stamp
          rcases hxy with rfl | ⟨f, -⟩
          · exact first
          · obtain ⟨⟨fid, k, fm⟩, rest⟩ := f
            have holds : ((x.mark msReleased 0 s.stamp).marks.any fun k => k.milestone == 6) = true := by
              obtain ⟨j, hj⟩ := first.1.2
              rw [hj]
              split
              · assumption
              · simp [msReleased]
            rw [if_pos holds] at fm
            exact ⟨⟨fid.trans first.1.1, first.1.2.imp fun j hj => fm.trans hj⟩, rest⟩
      · exact s.givenUp_refl _
    · exact s.givenUp_refl _

/-- R114, R150: heads judged in `u`, whose estimates were computed. -/
theorem State.reestimated_of_judgeHeads {s u t : State} (h : u.estimated)
    (phases : ∀ x ∈ u.seqr.runList, ∀ z ∈ s.seqr.runList, z.id = x.id → z.phase = .finishing → x.phase = .finishing)
    (list : t.seqr.runList = u.judgeHeads.seqr.runList) (rep : t.rep = u.rep) (cfg : t.cfg = u.cfg)
    (profile : t.profile = u.profile) (crane : t.seqr.crane = u.seqr.crane) : s.reestimated t := by
  refine ⟨u.seqr.runList, fun pre r post n hl hr => ?_, ?_, phases⟩
  · refine h pre r post n hl (Eq.trans ?_ hr)
    simp only [rep, crane]
    simp only [State.remaining, rep, cfg, profile]
  · have g := u.judgeHead_givenUp u.seqr.runList.length
    simpa only [State.givenUp, State.blocked, rep, list, State.judgeHeads] using g

/-- R150: a job that a milestone update of an id leaves unfinished was unfinished before. -/
theorem length_unfinished_update_lt {l : List RunJob} {r : RunJob} {m : Nat} (mem : r ∈ l)
    (unfinished : r.phase ≠ .finishing)
    (unsent : r.finalSent = false) (final : 2 < m) (detail stamp : Nat) :
    ((l.map fun x => if x.id == r.id then x.mark m detail stamp else x).filter fun x => x.phase != .finishing).length <
      (l.filter fun x => x.phase != .finishing).length := by
  have le : ∀ x : RunJob, (x.mark m detail stamp).phase ≠ .finishing → x.phase ≠ .finishing := fun x => by
    cases hx : x.finalSent with
    | true => rw [RunJob.mark_of_final hx]; exact id
    | false => intro h; exact absurd (RunJob.mark_setsFinal hx final detail stamp).2.1 h
  have all : ∀ k : List RunJob,
      ((k.map fun x => if x.id == r.id then x.mark m detail stamp else x).filter fun x => x.phase != .finishing).length ≤
        (k.filter fun x => x.phase != .finishing).length := fun k => by
    induction k with
    | nil => simp
    | cons a t ih =>
      have := le a
      by_cases ha : a.id = r.id <;> by_cases h1 : (a.mark m detail stamp).phase = .finishing <;>
        by_cases h2 : a.phase = .finishing <;> simp_all <;> omega
  induction l with
  | nil => simp at mem
  | cons a t ih =>
    rcases List.mem_cons.1 mem with rfl | mem
    · have := all t
      have done := (RunJob.mark_setsFinal unsent final detail stamp).2.1
      simp only [List.map_cons, beq_self_eq_true, if_true, List.filter_cons]
      rw [if_neg (by simp [done]), if_pos (by simpa using unfinished)]
      exact Nat.lt_succ_of_le this
    · have := ih mem
      have := le a
      by_cases ha : a.id = r.id <;> by_cases h1 : (a.mark m detail stamp).phase = .finishing <;>
        by_cases h2 : a.phase = .finishing <;> simp_all <;> omega

/-- R150: a head whose final milestone was set stays the head at a final milestone of its id. -/
theorem State.head_milestone_of_final {s : State} {r : RunJob} (h : s.seqr.head = some r) (sent : r.finalSent = true)
    {m : Nat} (final : 2 < m) (detail : Nat) : (s.milestone r.id m detail).seqr.head = some r := by
  unfold State.milestone
  split
  · exact h
  · simp only [Sequencer.head, Sequencer.update] at h ⊢
    generalize s.seqr.runList = l at h
    induction l with
    | nil => simp at h
    | cons a t ih =>
      by_cases ha : a.phase = .finishing
      · have stays : (if a.id == r.id then a.mark m detail s.stamp else a).phase = .finishing := by
          split
          · cases hx : a.finalSent with
            | true => rw [RunJob.mark_of_final hx]; exact ha
            | false => exact (RunJob.mark_setsFinal hx final detail s.stamp).2.1
          · exact ha
        simp only [List.map_cons, List.find?_cons, ha, stays] at h ⊢
        exact ih h
      · have hb : (a.phase != .finishing) = true := by simpa using ha
        rw [List.find?_cons, hb] at h
        obtain rfl := Option.some.inj h
        simp [RunJob.mark_of_final sent, ha]

/-- R150: with fuel for every job that is not FINISHING, the judged head is `State.headJudged`. -/
theorem State.judgeHead_judged : ∀ (n : Nat) (s : State), s.mem.st ≠ .faulted →
    (s.seqr.runList.filter fun x => x.phase != .finishing).length ≤ n → (s.judgeHead n).headJudged := by
  intro n
  have stays : ∀ (n : Nat) (s : State) (r : RunJob), s.seqr.head = some r → r.finalSent = true →
      (s.judgeHead n).seqr.head = some r := fun n => by
    induction n with
    | zero => intro s r h _; exact h
    | succ n ih =>
      intro s r h sent
      simp only [State.judgeHead, h]
      split
      · exact ih _ _ (State.head_milestone_of_final h sent (by decide) 0) sent
      · exact h
  induction n with
  | zero =>
    intro s _ fuel r e h
    have mem := List.mem_of_find?_eq_some h
    have unfinished := List.find?_some h
    have : r ∈ s.seqr.runList.filter fun x => x.phase != .finishing := List.mem_filter.2 ⟨mem, unfinished⟩
    rw [List.length_eq_zero_iff.1 (Nat.le_zero.1 fuel)] at this
    simp at this
  | succ n ih =>
    intro s live fuel
    cases h : s.seqr.head with
    | none => intro r e hr; simp [State.judgeHead, h] at hr
    | some r =>
      have mem := List.mem_of_find?_eq_some h
      have unfinished : r.phase ≠ .finishing := by simpa using List.find?_some h
      by_cases c : (s.mem.st != .faulted && s.blocked r && !s.predAhead r) = true
      · have next : s.judgeHead (n + 1) = (s.milestone r.id msReleased 0).judgeHead n := by
          simp only [State.judgeHead, h, c, if_true]
        rw [next]
        cases sent : r.finalSent with
        | true =>
          intro x e hx _ unsent
          rw [stays n _ r (State.head_milestone_of_final h sent (by decide) 0) sent] at hx
          obtain rfl := Option.some.inj hx
          simp [sent] at unsent
        | false =>
          refine ih _ (by simpa using live) ?_
          have less := length_unfinished_update_lt mem unfinished sent (m := msReleased) (by decide) 0 s.stamp
          unfold State.milestone
          rw [if_neg (by simpa using live)]
          exact Nat.le_of_lt_succ (Nat.lt_of_lt_of_le less fuel)
      · have same : s.judgeHead (n + 1) = s := by
          simp only [State.judgeHead, h]
          exact if_neg c
        rw [same]
        intro x e hx waits _ he alive
        rw [h] at hx
        obtain rfl := Option.some.inj hx
        have ahead : s.predAhead r = true := by
          simpa [live, State.blocked, waits, he, alive] using c
        simp only [State.predAhead, he, List.any_eq_true, beq_iff_eq] at ahead
        obtain ⟨x, hx, hid⟩ := ahead
        rw [← List.takeWhile_append_dropWhile (p := fun x => x.id != r.id) (l := s.seqr.runList), List.mem_append] at mem
        obtain ⟨a, post, tail⟩ := List.append_of_mem (mem.resolve_left fun k => by
          simpa using List.all_eq_true.1 List.all_takeWhile _ k)
        refine ⟨(s.seqr.runList.takeWhile fun x => x.id != r.id) ++ a, post, ?_, x, List.mem_append_left _ hx, hid⟩
        rw [List.append_assoc, ← tail, List.takeWhile_append_dropWhile]

/-- R150: outside FAULTED the judgement of the head leaves `State.headJudged`. -/
theorem State.judgeHeads_judged (s : State) (live : s.mem.st ≠ .faulted) : s.judgeHeads.headJudged :=
  State.judgeHead_judged _ s live (List.length_filter_le ..)

end Sys2Proof.Machine
end

