-- ==== Sys2Proof/Laws/RunList.lean ====
section
/-! SUPPORT. What each change of the run list does to the jobs it holds (R148): a milestone, the judgement of heads and the
estimates keep them, an insertion (R149) adds one at its place, and a leaving (R151) takes jobs out. -/

namespace Sys2Proof.Machine

/-- The jobs of the run list, by their ids, in order. -/
abbrev State.runIds (s : State) : List JobId := s.seqr.runList.map RunJob.id

/-- R165: a milestone keeps a job's id. -/
theorem RunJob.mark_id (r : RunJob) (m detail stamp : Nat) : (r.mark m detail stamp).id = r.id := by
  unfold RunJob.mark; (repeat' split) <;> rfl

/-- R165: a milestone set keeps the jobs of the list. -/
theorem State.milestone_runIds (s : State) (id : JobId) (m detail : Nat) : (s.milestone id m detail).runIds = s.runIds := by
  unfold State.milestone
  split
  · rfl
  · simp only [State.runIds, Sequencer.update, List.map_map]
    exact List.map_congr_left fun r _ => by
      simp only [Function.comp_apply]; split
      · exact r.mark_id ..
      · rfl

/-- R150: so does the judgement of heads. -/
theorem State.judgeHead_runIds (n : Nat) : ∀ s : State, (s.judgeHead n).runIds = s.runIds := by
  induction n with
  | zero => intro s; rfl
  | succ n ih =>
    intro s
    unfold State.judgeHead
    (repeat' split)
    · rw [ih, State.milestone_runIds]
    · rfl
    · rfl

/-- R114: the estimates keep the jobs of a list. -/
theorem State.estimates_ids (s : State) (l : List RunJob) : ∀ (head : Bool) (prev : Option Point) (fresh : Nat),
    (s.estimates head prev fresh l).2.map RunJob.id = l.map RunJob.id := by
  induction l with
  | nil => intro head prev fresh; rfl
  | cons r t ih =>
    intro head prev fresh
    simp only [State.estimates]
    split <;> simp [ih]

/-- R114: the estimates computed anew keep the jobs of the list. -/
theorem State.reestimate_runIds (s : State) : s.reestimate.runIds = s.runIds := by
  unfold State.reestimate
  split
  · rfl
  · exact s.estimates_ids ..

/-- R148, R149: an accepted job that the list does not hold enters at its place, and one that it holds changes nothing. -/
theorem State.insertRun_runIds (s : State) (e : JobEntry) :
    (e.id ∈ s.runIds → s.insertRun e = s) ∧
    (e.id ∉ s.runIds → ∃ pre post, s.runIds = pre ++ post ∧ pre.length = min (insertPlace s.seqr.runList e.job) s.runIds.length ∧
      (s.insertRun e).runIds = pre ++ e.id :: post) := by
  have held : (s.seqr.runList.any fun r => r.id == e.id) = true ↔ e.id ∈ s.runIds := by simp
  constructor
  · intro h
    simp only [State.insertRun, held.2 h, if_true]
  · intro h
    have no : (s.seqr.runList.any fun r => r.id == e.id) = false := by
      rw [← Bool.not_eq_true, held]; exact h
    refine ⟨(s.seqr.runList.take (insertPlace s.seqr.runList e.job)).map RunJob.id,
      (s.seqr.runList.drop (insertPlace s.seqr.runList e.job)).map RunJob.id, ?_, ?_, ?_⟩
    · rw [← List.map_append, List.take_append_drop]
    · simp
    · simp only [State.insertRun, no, Bool.false_eq_true, if_false, State.reestimate_runIds]
      split <;> simp [State.milestone_runIds, State.runIds, JobEntry.runJob]

/-- R148: an insertion keeps every job once in the list. -/
theorem State.insertRun_listed (s : State) (e : JobEntry) (h : s.listed) : (s.insertRun e).listed := by
  by_cases held : e.id ∈ s.runIds
  · rwa [(s.insertRun_runIds e).1 held]
  · obtain ⟨pre, post, split, -, after⟩ := (s.insertRun_runIds e).2 held
    show (s.insertRun e).runIds.Nodup
    rw [after, List.perm_middle.nodup_iff]
    rw [split] at held
    exact List.nodup_cons.2 ⟨held, split ▸ h⟩

/-- R151, R167: outside FAULTED the selected jobs leave the list, and the others stay in their order. -/
theorem State.leaveRun_runIds (s : State) (p : JobId → Bool) :
    (s.mem.st = .faulted → s.leaveRun p = s) ∧
    (s.mem.st ≠ .faulted → (s.leaveRun p).runIds = s.runIds.filter fun id => !p id) := by
  constructor
  · intro h; simp [State.leaveRun, h]
  · intro h
    by_cases some : (s.seqr.runList.any fun r => p r.id) = true
    · have live : (s.mem.st != .faulted) = true := by simpa using h
      simp only [State.leaveRun, live, some, Bool.and_self, if_true, State.reestimate_runIds, State.runIds, List.filter_map,
        Function.comp_def]
    · have none : (s.seqr.runList.any fun r => p r.id) = false := by simpa using some
      simp only [State.leaveRun, none, Bool.and_false, Bool.false_eq_true, if_false]
      refine (List.filter_eq_self.2 fun id hid => ?_).symm
      obtain ⟨r, hr, rfl⟩ := List.mem_map.1 hid
      simpa using List.any_eq_false.1 none r hr

end Sys2Proof.Machine
end

