-- ==== Sys2Proof/Laws/Estimates.lean ====
section
/-! SUPPORT. When the remaining estimates are computed anew (R114): by a change of the run list, by what follows an
application, and by the reconciliation of a success. -/

namespace Sys2Proof.Machine

/-- The jobs of the list `l` that stood FINISHING in `s` are FINISHING in it. -/
abbrev State.keepsFinishing (s : State) (l : List RunJob) : Prop :=
  ∀ x ∈ l, ∀ z ∈ s.seqr.runList, z.id = x.id → z.phase = .finishing → x.phase = .finishing

/-- R114: the estimates computed anew change no job's id or phase. -/
theorem State.mem_estimates (s : State) {l : List RunJob} {x : RunJob} : ∀ {head : Bool} {prev : Option Point} {fresh : Nat},
    x ∈ (s.estimates head prev fresh l).2 → ∃ y ∈ l, x.id = y.id ∧ x.phase = y.phase := by
  induction l with
  | nil => intro _ _ _ h; simp [State.estimates] at h
  | cons a t ih =>
    intro head prev fresh h
    simp only [State.estimates] at h
    split at h
    all_goals
      rcases List.mem_cons.1 h with rfl | h
      · exact ⟨a, List.mem_cons_self, rfl, rfl⟩
      · obtain ⟨y, hy, e⟩ := ih h
        exact ⟨y, List.mem_cons_of_mem _ hy, e⟩

/-- R114: the same for the run list. -/
theorem State.mem_reestimate {s : State} {x : RunJob} (h : x ∈ s.reestimate.seqr.runList) :
    ∃ y ∈ s.seqr.runList, x.id = y.id ∧ x.phase = y.phase := by
  unfold State.reestimate at h
  split at h
  · exact ⟨x, h, rfl, rfl⟩
  · exact s.mem_estimates h

/-- R114: jobs FINISHING stay so when the estimates are computed anew. -/
theorem State.keepsFinishing.reestimate {s u : State} (h : s.keepsFinishing u.seqr.runList) :
    s.keepsFinishing u.reestimate.seqr.runList := by
  intro x hx z hz hid hf
  obtain ⟨y, hy, i, p⟩ := State.mem_reestimate hx
  rw [p]
  exact h y hy z hz (hid.trans i) hf

/-- R148: a list that holds no job twice keeps its own FINISHING jobs. -/
theorem State.listed.keepsFinishing {s : State} (h : s.listed) : s.keepsFinishing s.seqr.runList := by
  intro x hx z hz hid hf
  have apart := List.pairwise_map.1 h
  obtain ⟨i, hi, rfl⟩ := List.getElem_of_mem hx
  obtain ⟨j, hj, rfl⟩ := List.getElem_of_mem hz
  have e : i = j := by
    rcases Nat.lt_trichotomy i j with l | e | l
    · exact absurd hid.symm (List.pairwise_iff_getElem.1 apart i j hi hj l)
    · exact e
    · exact absurd hid (List.pairwise_iff_getElem.1 apart j i hj hi l)
  subst e
  exact hf

/-- R151: jobs that leave take no other's phase, and the estimates are computed anew when any leaves. -/
theorem State.leaveRun_estimated {s u : State} (live : u.mem.st ≠ .faulted) (keeps : s.keepsFinishing u.seqr.runList)
    (p : JobId → Bool) :
    s.keepsFinishing (u.leaveRun p).seqr.runList ∧ (u.leaveRun p = u ∨ (u.leaveRun p).estimated) := by
  unfold State.leaveRun
  split
  · refine ⟨State.keepsFinishing.reestimate fun x hx => keeps x (List.mem_filter.1 hx).1, .inr ?_⟩
    exact State.reestimate_estimated _ live
  · exact ⟨keeps, .inl rfl⟩

/-- R114, R150: where the heads judged in `u` leave `t`, and `t` holds other jobs than `s`, the estimates were computed anew. -/
theorem State.reestimated_of_ids {s u t : State} (keeps : s.keepsFinishing u.seqr.runList)
    (est : u.estimated ∨ u.runIds = s.runIds) (list : t.seqr.runList = u.judgeHeads.seqr.runList) (rep : t.rep = u.rep)
    (cfg : t.cfg = u.cfg) (profile : t.profile = u.profile) (crane : t.seqr.crane = u.seqr.crane)
    (other : t.runIds ≠ s.runIds) : s.reestimated t := by
  rcases est with est | same
  · exact State.reestimated_of_judgeHeads est keeps list rep cfg profile crane
  · refine absurd ?_ other
    rw [State.runIds, list]
    exact (State.judgeHead_runIds _ u).trans same

/-- R114, R151: what follows an application computes the estimates anew where it changes which jobs the list holds; `u` is the
state it starts from, with the list of `s` or with its own estimates computed. -/
theorem State.settle_reestimated {s u : State} (live : u.mem.st ≠ .faulted) (keeps : s.keepsFinishing u.seqr.runList)
    (est : u.estimated ∨ u.runIds = s.runIds) (before : State) (other : (u.settle before).runIds ≠ s.runIds) :
    s.reestimated (u.settle before) := by
  obtain ⟨keeps', left⟩ := State.leaveRun_estimated live keeps fun id => u.ended before.rep id
  have est' : (u.leaveRun fun id => u.ended before.rep id).estimated ∨
      (u.leaveRun fun id => u.ended before.rep id).runIds = s.runIds := by
    rcases left with e | e
    · rw [e]; exact est
    · exact .inl e
  refine State.reestimated_of_ids keeps' est' ?_ ?_ ?_ ?_ ?_ other <;>
    (simp only [State.settle]; split <;> simp)

/-- R149: an accepted job that enters the list has the estimates computed anew. -/
theorem State.insertRun_estimated {s u : State} (live : u.mem.st ≠ .faulted) (keeps : s.keepsFinishing u.seqr.runList)
    (same : u.runIds = s.runIds) (e : JobEntry) :
    s.keepsFinishing (u.insertRun e).seqr.runList ∧ (u.insertRun e = u ∨ (u.insertRun e).estimated) := by
  unfold State.insertRun
  dsimp only
  split
  · exact ⟨keeps, .inl rfl⟩
  · rename_i new
    have new : ∀ z ∈ s.seqr.runList, z.id ≠ e.id := by
      intro z hz he
      have : e.id ∈ u.runIds := same ▸ he ▸ List.mem_map_of_mem hz
      exact new (by simpa using this)
    have entered : s.keepsFinishing (u.seqr.runList.take (insertPlace u.seqr.runList e.job) ++ [e.runJob] ++
        u.seqr.runList.drop (insertPlace u.seqr.runList e.job)) := by
      intro x hx z hz hid hf
      simp only [List.mem_append, List.mem_singleton] at hx
      rcases hx with (hx | rfl) | hx
      · exact keeps x (List.mem_of_mem_take hx) z hz hid hf
      · exact absurd hid (new z hz)
      · exact keeps x (List.mem_of_mem_drop hx) z hz hid hf
    refine ⟨State.keepsFinishing.reestimate ?_, .inr (State.reestimate_estimated _ ?_)⟩
    · split
      · intro x hx z hz hid hf
        simp only [State.milestone, beq_iff_eq, live, if_false, Sequencer.update] at hx
        obtain ⟨y, hy, rfl⟩ := List.mem_map.1 hx
        split at hid
        · rename_i named
          rw [if_pos named]
          rw [RunJob.mark_id] at hid
          cases sent : y.finalSent with
          | true => rw [RunJob.mark_of_final sent]; exact entered y hy z hz hid hf
          | false => exact (RunJob.mark_setsFinal sent (by decide : 2 < msReleased) 0 _).2.1
        · rename_i other
          rw [if_neg other]
          exact entered y hy z hz hid hf
      · exact entered
    · split <;> simpa using live

end Sys2Proof.Machine
end

