-- ==== Sys2Proof/Laws/Joining.lean ====
section
/-! SUPPORT. The judgements of joining: what `Replica.joinReason` (R45) and `ConfigBlock.sound` (R40) answer, said by the
reasons and the ranges of the statements. -/

namespace Sys2Proof.Machine

/-! ## The JOIN (R45) -/

/-- R45, FIELDS. -/
theorem Replica.rejects_fields (r : Replica) (hash : Option Word16) (p : List Byte) :
    r.rejects hash p 1 ↔ joinFieldsBad p = true := by
  have any : (∃ i < byteAt p 8, 15 < byteAt p (9 + 3 * i) ∨ 4 < byteAt p (10 + 3 * i) ∨ 4 < byteAt p (11 + 3 * i)) ↔
      ((joinDocks p).any fun d => d.1 > 15 || d.2.1 > 4 || d.2.2 > 4) = true := by
    simp [joinDocks, or_assoc]
  simp only [Replica.rejects, joinFieldsBad, any]
  generalize ((joinDocks p).any fun d => d.1 > 15 || d.2.1 > 4 || d.2.2 > 4) = x
  by_cases h1 : byteAt p 0 = 1 <;> by_cases h3 : byteAt p 2 = 3 <;> cases x <;> simp [h1, h3] <;> omega

/-- R45, PARAMETERS. -/
theorem Replica.rejects_hash (r : Replica) (hash : Option Word16) (p : List Byte) :
    r.rejects hash p 2 ↔ (hash != some (BitVec.ofNat 16 (wordAt p 6))) = true := by
  simp [Replica.rejects]

/-- The ends by their codes, for the values that FIELDS lets through. -/
theorem craneEnd_ofCode {n : Nat} (h : 1 ≤ n ∧ n ≤ 3) : ((CraneEnd.ofCode n).getD .absent).code = n ∧
    (((CraneEnd.ofCode n).getD .absent) = .sole ↔ n = 3) ∧ (((CraneEnd.ofCode n).getD .absent) = .low ↔ n = 1) ∧
    (((CraneEnd.ofCode n).getD .absent) = .high ↔ n = 2) := by
  have : n = 1 ∨ n = 2 ∨ n = 3 := by omega
  rcases this with h | h | h <;> subst h <;> decide

/-- What a JOIN that FIELDS lets through carries. -/
theorem joinFields_sound {p : List Byte} (h : joinFieldsBad p = false) : byteAt p 0 = 1 → 1 ≤ byteAt p 2 ∧ byteAt p 2 ≤ 3 := by
  intro h1
  simp [joinFieldsBad, h1] at h
  omega

/-- R45, DUPLICATE_IDENTITY. -/
theorem Replica.rejects_identity (r : Replica) (hash : Option Word16) (p : List Byte) (h : joinFieldsBad p = false) :
    r.rejects hash p 3 ↔ (byteAt p 0 == 1 && r.roster.any (fun t => t.role == .crane && t.aisle == byteAt p 1 &&
      t.craneEnd == (CraneEnd.ofCode (byteAt p 2)).getD .absent)) = true := by
  have code {n : Nat} (hn : 1 ≤ n ∧ n ≤ 3) (e : CraneEnd) : e.code = n ↔ e = (CraneEnd.ofCode n).getD .absent := by
    have : n = 1 ∨ n = 2 ∨ n = 3 := by omega
    rcases this with h | h | h <;> subst h <;> cases e <;> decide
  by_cases h1 : byteAt p 0 = 1
  · simp [Replica.rejects, h1, code (joinFields_sound h h1), and_assoc]
  · simp [Replica.rejects, h1]

/-- R45, FORM. -/
theorem Replica.rejects_form (r : Replica) (hash : Option Word16) (p : List Byte) (h : joinFieldsBad p = false) :
    r.rejects hash p 4 ↔ (byteAt p 0 == 1 && (match r.aisle (byteAt p 1) with
      | some a => a.form != (if (CraneEnd.ofCode (byteAt p 2)).getD .absent == .sole then AisleForm.sole else .tandem)
      | none => false)) = true := by
  by_cases h1 : byteAt p 0 = 1
  · have hs := (craneEnd_ofCode (joinFields_sound h h1)).2.1
    cases ha : r.aisle (byteAt p 1) with
    | none => simp [Replica.rejects, h1, ha]
    | some a =>
      by_cases h3 : byteAt p 2 = 3 <;> cases hf : a.form <;> simp [Replica.rejects, h1, ha, hs, h3, hf, show (CraneEnd.ofCode 3).getD .absent = .sole from rfl]
  · simp [Replica.rejects, h1]

/-- R45, OWN_SIDE. -/
theorem Replica.rejects_side (r : Replica) (hash : Option Word16) (p : List Byte) (h : joinFieldsBad p = false) :
    r.rejects hash p 5 ↔ (byteAt p 0 == 1 && ((CraneEnd.ofCode (byteAt p 2)).getD .absent).tandem &&
      !((CraneEnd.ofCode (byteAt p 2)).getD .absent).ownSide (match r.aisle (byteAt p 1) with
        | some a => orZero a.boundary
        | none => byteAt p 5) (segment (byteAt p 3))) = true := by
  by_cases h1 : byteAt p 0 = 1
  · have hc := craneEnd_ofCode (joinFields_sound h h1)
    have := joinFields_sound h h1
    have : byteAt p 2 = 1 ∨ byteAt p 2 = 2 ∨ byteAt p 2 = 3 := by omega
    rcases this with h2 | h2 | h2 <;> cases ha : r.aisle (byteAt p 1) <;>
      simp [Replica.rejects, h1, h2, ha, CraneEnd.ofCode, CraneEnd.tandem, CraneEnd.ownSide, segment]
  · simp [Replica.rejects, h1]

/-- R45, DOCKS. -/
theorem Replica.rejects_docks (r : Replica) (hash : Option Word16) (p : List Byte) :
    r.rejects hash p 6 ↔ (!decide ((joinDocks p).map (·.1)).Nodup || (joinDocks p).any (fun d => d.2.2 > d.2.1)) = true := by
  have nodup : ((joinDocks p).map (·.1)).Nodup ↔
      ∀ j < byteAt p 8, ∀ i < j, byteAt p (9 + 3 * i) ≠ byteAt p (9 + 3 * j) := by
    rw [List.Nodup, List.pairwise_iff_getElem]
    simp only [joinDocks, List.length_map, List.length_range, List.getElem_map, List.getElem_range]
    exact ⟨fun h j hj i hi => h i j (by omega) hj hi, fun h i j _ hj hij => h j hj i hij⟩
  simp only [Replica.rejects, Bool.or_eq_true, Bool.not_eq_true', decide_eq_false_iff_not, nodup]
  simp [joinDocks]

/-- The first of six reasons in a chain of tests; a test may speak of its reason where the first test failed. -/
theorem first_of_chain {P : Nat → Prop} {b1 b2 b3 b4 b5 b6 : Bool} (h1 : P 1 ↔ b1 = true) (h2 : P 2 ↔ b2 = true)
    (h6 : P 6 ↔ b6 = true) (h : b1 = false → (P 3 ↔ b3 = true) ∧ (P 4 ↔ b4 = true) ∧ (P 5 ↔ b5 = true)) (n : Nat)
    (hn : n = if b1 then 1 else if b2 then 2 else if b3 then 3 else if b4 then 4 else if b5 then 5 else if b6 then 6
      else 0) :
    (n = 0 ↔ ∀ i, 1 ≤ i → i ≤ 6 → ¬ P i) ∧
    ∀ k, k ≠ 0 → (n = k ↔ 1 ≤ k ∧ k ≤ 6 ∧ P k ∧ ∀ i, 1 ≤ i → i < k → ¬ P i) := by
  have done (h : n = 0 ∧ (∀ i, 1 ≤ i → i ≤ 6 → ¬ P i) ∨ 1 ≤ n ∧ n ≤ 6 ∧ P n ∧ ∀ i, 1 ≤ i → i < n → ¬ P i) :
      (n = 0 ↔ ∀ i, 1 ≤ i → i ≤ 6 → ¬ P i) ∧
      ∀ k, k ≠ 0 → (n = k ↔ 1 ≤ k ∧ k ≤ 6 ∧ P k ∧ ∀ i, 1 ≤ i → i < k → ¬ P i) := by
    rcases h with ⟨h0, ha⟩ | ⟨hl, hu, hr, hb⟩
    · exact ⟨⟨fun _ => ha, fun _ => h0⟩, fun k _ => ⟨fun e => by omega, fun e => absurd e.2.2.1 (ha k e.1 e.2.1)⟩⟩
    · refine ⟨⟨fun e => by omega, fun e => absurd hr (e n hl hu)⟩, fun k _ => ⟨fun e => e ▸ ⟨hl, hu, hr, hb⟩, fun e => ?_⟩⟩
      exact Nat.le_antisymm (Nat.le_of_not_lt fun hlt => hb k e.1 hlt e.2.2.1)
        (Nat.le_of_not_lt fun hlt => e.2.2.2 n hl hlt hr)
  have upTo {m : Nat} (hm : m ≤ 7) (f1 : 1 < m → ¬ P 1) (f2 : 2 < m → ¬ P 2) (f3 : 3 < m → ¬ P 3) (f4 : 4 < m → ¬ P 4)
      (f5 : 5 < m → ¬ P 5) (f6 : 6 < m → ¬ P 6) : ∀ i, 1 ≤ i → i < m → ¬ P i := by
    intro i hi hlt
    have : i = 1 ∨ i = 2 ∨ i = 3 ∨ i = 4 ∨ i = 5 ∨ i = 6 := by omega
    rcases this with e | e | e | e | e | e <;> subst e
    · exact f1 hlt
    · exact f2 hlt
    · exact f3 hlt
    · exact f4 hlt
    · exact f5 hlt
    · exact f6 hlt
  apply done
  cases b1
  · obtain ⟨h3, h4, h5⟩ := h rfl
    cases b2 <;> cases b3 <;> cases b4 <;> cases b5 <;> cases b6 <;> simp at h1 h2 h3 h4 h5 h6 hn <;> subst hn
    case false.false.false.false.false => exact .inl ⟨rfl, fun i hl hu =>
      upTo (m := 7) (by decide) (fun _ => h1) (fun _ => h2) (fun _ => h3) (fun _ => h4) (fun _ => h5) (fun _ => h6) i hl
        (by omega)⟩
    all_goals
      refine .inr ⟨by decide, by decide, by assumption, upTo (by decide) ?_ ?_ ?_ ?_ ?_ ?_⟩ <;> intro hlt <;>
        first | assumption | omega
  · simp at h1 hn
    subst hn
    exact .inr ⟨by decide, by decide, h1, fun i _ _ => by omega⟩

/-- R45: the judgement of a JOIN is the first of the reasons that holds, and 0 when none does. -/
theorem Replica.joinReason_spec (r : Replica) (hash : Option Word16) (p : List Byte) :
    (r.joinReason hash p = 0 ↔ r.acceptsJoin hash p) ∧
    ∀ reason, reason ≠ 0 → (r.joinReason hash p = reason ↔ r.firstRejects hash p reason) :=
  first_of_chain (r.rejects_fields hash p) (r.rejects_hash hash p) (r.rejects_docks hash p)
    (fun h => ⟨r.rejects_identity hash p h, r.rejects_form hash p h, r.rejects_side hash p h⟩) _ rfl

/-! ## The JOIN request (R40) -/

/-- R40, R187: the ranges of the configuration block, spelled out. -/
theorem ConfigBlock.sound_iff (c : ConfigBlock) :
    let within (lo hi n : Nat) := lo ≤ n ∧ n ≤ hi
    let common := within 1 31 c.number ∧ within 1 2 c.roleByte ∧ within 100 2000 c.pTime ∧ within 20 1000 c.wTime ∧
      within 1 60 c.qTime ∧ within 1 32 c.threshold ∧
      ∀ i < 4, within 1 65534 (c.word (0x18 + 2 * i)) ∧ c.word (0x20 + 2 * i) ≤ 65534 ∧
        within 1 65534 (c.word (0x28 + 2 * i)) ∧ c.word (0x30 + 2 * i) ≤ 65534
    let crane := c.aisle ≤ 7 ∧ within 1 3 (c.byte 0x03) ∧ within 1 3 c.rated ∧ (c.byte 0x03 ≠ 3 → within 1 14 c.home) ∧
      within 1 65534 c.pickTime ∧ within 1 65534 c.dropTime ∧ c.rearExtra ≤ 65534 ∧ within 1 60 c.margin ∧
      c.retryLimit ≤ 3 ∧ c.learn ≤ 1
    let dispatch := c.dockCount ≤ 4 ∧
      (∀ i < c.dockCount, c.byte (7 + 3 * i) ≤ 15 ∧ c.byte (8 + 3 * i) ≤ 4 ∧ c.byte (9 + 3 * i) ≤ c.byte (8 + 3 * i)) ∧
      ∀ j < c.dockCount, ∀ i < j, c.byte (7 + 3 * i) ≠ c.byte (7 + 3 * j)
    common ∧ (c.roleByte = 1 → crane) ∧ (c.roleByte = 2 → dispatch) ↔ c.sound = true := by
  have common : c.commonSound = true ↔ (1 ≤ c.number ∧ c.number ≤ 31) ∧ (1 ≤ c.roleByte ∧ c.roleByte ≤ 2) ∧
      (100 ≤ c.pTime ∧ c.pTime ≤ 2000) ∧ (20 ≤ c.wTime ∧ c.wTime ≤ 1000) ∧ (1 ≤ c.qTime ∧ c.qTime ≤ 60) ∧
      (1 ≤ c.threshold ∧ c.threshold ≤ 32) ∧
      ∀ i < 4, (1 ≤ c.word (0x18 + 2 * i) ∧ c.word (0x18 + 2 * i) ≤ 65534) ∧ c.word (0x20 + 2 * i) ≤ 65534 ∧
        (1 ≤ c.word (0x28 + 2 * i) ∧ c.word (0x28 + 2 * i) ≤ 65534) ∧ c.word (0x30 + 2 * i) ≤ 65534 := by
    simp only [ConfigBlock.commonSound, inRange, Bool.and_eq_true, decide_eq_true_eq, List.all_eq_true, List.mem_range,
      Nat.zero_le, true_and, and_assoc]
    constructor
    · rintro ⟨a1, a2, a3, a4, a5, a6, a7, a8, a9, a10, rows, b1, b2⟩
      exact ⟨a1, a2, a3, a4, a5, a6, a7, a8, a9, a10, b1, b2, rows⟩
    · rintro ⟨a1, a2, a3, a4, a5, a6, a7, a8, a9, a10, b1, b2, rows⟩
      exact ⟨a1, a2, a3, a4, a5, a6, a7, a8, a9, a10, rows, b1, b2⟩
  have crane : c.craneSound = true ↔ c.aisle ≤ 7 ∧ (1 ≤ c.byte 0x03 ∧ c.byte 0x03 ≤ 3) ∧ (1 ≤ c.rated ∧ c.rated ≤ 3) ∧
      (c.byte 0x03 ≠ 3 → 1 ≤ c.home ∧ c.home ≤ 14) ∧ (1 ≤ c.pickTime ∧ c.pickTime ≤ 65534) ∧
      (1 ≤ c.dropTime ∧ c.dropTime ≤ 65534) ∧ c.rearExtra ≤ 65534 ∧ (1 ≤ c.margin ∧ c.margin ≤ 60) ∧ c.retryLimit ≤ 3 ∧
      c.learn ≤ 1 := by
    by_cases h : 1 ≤ c.byte 0x03 ∧ c.byte 0x03 ≤ 3
    · have : c.byte 0x03 = 1 ∨ c.byte 0x03 = 2 ∨ c.byte 0x03 = 3 := by omega
      rcases this with e | e | e <;>
        simp [ConfigBlock.craneSound, ConfigBlock.craneEnd, inRange, e, CraneEnd.ofCode, CraneEnd.tandem, and_assoc]
    · simp [ConfigBlock.craneSound, inRange, h]
  have docks : c.docksSound = true ↔ c.dockCount ≤ 4 ∧
      (∀ i < c.dockCount, c.byte (7 + 3 * i) ≤ 15 ∧ c.byte (8 + 3 * i) ≤ 4 ∧ c.byte (9 + 3 * i) ≤ c.byte (8 + 3 * i)) ∧
      ∀ j < c.dockCount, ∀ i < j, c.byte (7 + 3 * i) ≠ c.byte (7 + 3 * j) := by
    by_cases h : c.dockCount ≤ 4
    · have nodup : (c.docks.map (·.1)).Nodup ↔
          ∀ j < c.dockCount, ∀ i < j, c.byte (7 + 3 * i) ≠ c.byte (7 + 3 * j) := by
        rw [List.Nodup, List.pairwise_iff_getElem]
        simp only [ConfigBlock.docks, List.length_map, List.length_range, List.getElem_map, List.getElem_range,
          Nat.min_eq_left h]
        exact ⟨fun f j hj i hi => f i j (by omega) hj hi, fun f i j _ hj hij => f j hj i hij⟩
      simp only [ConfigBlock.docksSound, Bool.and_eq_true, decide_eq_true_eq, nodup]
      simp [inRange, ConfigBlock.docks, h, and_comm, and_assoc]
    · simp [ConfigBlock.docksSound, inRange, h]
  simp only [ConfigBlock.sound, Bool.and_eq_true]
  rw [common]
  constructor
  · rintro ⟨hc, hk, hd⟩
    refine ⟨hc, ?_⟩
    have : c.roleByte = 1 ∨ c.roleByte = 2 := by omega
    rcases this with e | e
    · simpa [ConfigBlock.isDispatch, e] using crane.2 (hk e)
    · simpa [ConfigBlock.isDispatch, e] using docks.2 (hd e)
  · rintro ⟨hc, h⟩
    exact ⟨hc, fun e => crane.1 (by simpa [ConfigBlock.isDispatch, e] using h),
      fun e => docks.1 (by simpa [ConfigBlock.isDispatch, e] using h)⟩
end Sys2Proof.Machine
end

