-- ==== Sys2Proof/Laws/Port.lean ====
section
/-! SUPPORT. What a data byte of the Local Port does (R184): the transaction in which it moves, where its effect is that of
its address, and where it is ignored. -/

namespace Sys2Proof.Machine

/-- R184: a byte that has its effect moves in a live transaction, at that transaction's pointer. -/
theorem State.attends_transaction {s : State} {first : Opening} {write : Bool} {a : Nat} (h : s.attends first write a) :
    ∃ t, s.port.transaction first write a = some t ∧ t.live = true ∧ t.write = write ∧ t.pointer = a ∧ t.void = false ∧
      t.start = s.port.txn.elim a Transaction.start ∧ some t.next = s.txnAfter write a := by
  obtain ⟨held, ⟨none, rfl, region⟩ | ⟨t, some, rfl, live, rfl, rfl, region⟩⟩ := h
  · exact ⟨{ write := write, start := a, pointer := a, void := false },
      by cases write <;> simp [Port.transaction, none, held, accessByte],
      by simp [Transaction.live, region], rfl, rfl, rfl, by simp [none], by simp [State.txnAfter, Transaction.next, none]⟩
  · exact ⟨t, by simp [Port.transaction, some, held, live], by simp [Transaction.live, live, region], rfl, rfl, live,
      by simp [some], by simp [State.txnAfter, Transaction.next, some, live]⟩

/-- R184–R186: a data byte read, where it has its effect. -/
theorem State.portRead_of_attends {s : State} {first : Opening} {a : Nat} (h : s.attends first false a) :
    s.portRead first a =
      { s with port := { (s.readAt a).2 with txn := s.txnAfter false a, dataOut := (s.readAt a).1 } } := by
  obtain ⟨t, ht, live, -, -, -, -, next⟩ := State.attends_transaction h
  simp [State.portRead, ht, live, Port.moved, next]

/-- R184–R187: a data byte written, where it has its effect. -/
theorem State.portWrite_of_attends {s : State} {first : Opening} {a : Nat} (v : Byte) (h : s.attends first true a) :
    s.portWrite first a v =
      { s.writeAt a v with port := { (s.writeAt a v).port with txn := s.txnAfter true a, dataOut := 0 } } := by
  obtain ⟨t, ht, live, -, -, -, -, next⟩ := State.attends_transaction h
  simp [State.portWrite, ht, live, Port.moved, next]

/-- R184, R194: in a transaction that is void or started in no region, a byte is ignored and reads as 0. -/
theorem State.port_of_dead {s : State} {first : Opening} {write : Bool} {a : Nat} {t : Transaction}
    (h : s.port.transaction first write a = some t) (dead : t.live = false) (v : Byte) :
    (write = false → s.portRead first a = { s with port := { s.port with txn := some t.next, dataOut := 0 } }) ∧
    (write = true → s.portWrite first a v = { s with port := { s.port with txn := some t.next, dataOut := 0 } }) := by
  constructor <;> rintro rfl
  · simp [State.portRead, h, dead, Port.moved]
  · simp [State.portWrite, h, dead, Port.moved]

/-- A byte that cannot be commanded changes nothing (log 36). -/
theorem State.port_of_none {s : State} {first : Opening} {write : Bool} {a : Nat}
    (h : s.port.transaction first write a = none) (v : Byte) :
    (write = false → s.portRead first a = s) ∧ (write = true → s.portWrite first a v = s) := by
  constructor <;> rintro rfl
  · simp [State.portRead, h]
  · simp [State.portWrite, h]

end Sys2Proof.Machine
end

