-- ==== Sys2Proof/Laws/Tables.lean ====
section
/-! SUPPORT. The keyed tables of the replica (R47, R58, R118, R130): what finding gives after a put or a drop, that a table
stays ascending, and that each one-item change of the replica folds its check into the signature (R82). -/

namespace Sys2Proof.Machine

/-! ## Membership and finding -/

theorem mem_insertAsc {α : Type} (key : α → Nat) (x y : α) (l : List α) : y ∈ insertAsc key x l ↔ y = x ∨ y ∈ l := by
  induction l with
  | nil => simp [insertAsc]
  | cons z t ih =>
    unfold insertAsc
    split
    · simp
    · simp only [List.mem_cons, ih]
      constructor
      · rintro (h | h | h)
        · exact .inr (.inl h)
        · exact .inl h
        · exact .inr (.inr h)
      · rintro (h | h | h)
        · exact .inr (.inl h)
        · exact .inl h
        · exact .inr (.inr h)

theorem mem_dropKey {α κ : Type} [DecidableEq κ] (key : α → κ) (k : κ) (y : α) (l : List α) :
    y ∈ dropKey key k l ↔ y ∈ l ∧ key y ≠ k := by simp [dropKey, List.mem_filter]

theorem mem_putKey {α : Type} (key : α → Nat) (x y : α) (l : List α) :
    y ∈ putKey key x l ↔ y = x ∨ (y ∈ l ∧ key y ≠ key x) := by rw [putKey, mem_insertAsc, mem_dropKey]

theorem findKey_dropKey_self {α κ : Type} [DecidableEq κ] (key : α → κ) (k : κ) (l : List α) :
    findKey key k (dropKey key k l) = none := by
  simp [findKey, dropKey]

theorem findKey_dropKey_of_ne {α κ : Type} [DecidableEq κ] (key : α → κ) (k j : κ) (l : List α) (h : j ≠ k) :
    findKey key j (dropKey key k l) = findKey key j l := by
  induction l with
  | nil => rfl
  | cons z t ih =>
    unfold dropKey findKey at *
    by_cases hz : key z = k
    · have hj : (key z == j) = false := by simp [hz, Ne.symm h]
      simp [hz, ih, Ne.symm h]
    · by_cases hzj : key z = j
      · simp [hzj, h]
      · simp [hz, hzj, ih]

theorem findKey_insertAsc {α : Type} (key : α → Nat) (x : α) (k : Nat) (l : List α) (h : ∀ y ∈ l, key y ≠ key x) :
    findKey key k (insertAsc key x l) = if key x = k then some x else findKey key k l := by
  induction l with
  | nil =>
    by_cases hx : key x = k <;> simp [insertAsc, findKey, hx]
  | cons z t ih =>
    have hz : key z ≠ key x := h z (by simp)
    have ht := ih fun y hy => h y (by simp [hy])
    unfold insertAsc
    split
    · by_cases hx : key x = k <;> simp [findKey, hx]
    · by_cases hx : key x = k
      · have hzk : (key z == k) = false := by rw [← hx]; exact beq_eq_false_iff_ne.2 hz
        simp only [findKey, List.find?_cons, hzk] at *
        exact ht
      · simp only [findKey, List.find?_cons] at *
        rw [ht, if_neg hx, if_neg hx]

/-- What is found after a put: the item at its own key, and what was there at any other. -/
theorem findKey_putKey {α : Type} (key : α → Nat) (x : α) (k : Nat) (l : List α) :
    findKey key k (putKey key x l) = if key x = k then some x else findKey key k l := by
  unfold putKey
  rw [findKey_insertAsc key x k _ fun y hy => ((mem_dropKey ..).1 hy).2]
  by_cases h : key x = k
  · simp [h]
  · simp only [h, if_false]
    exact findKey_dropKey_of_ne key (key x) k l (Ne.symm h)

/-! ## Order -/

theorem ascendingBy_dropKey {α : Type} (key : α → Nat) (k : Nat) (l : List α) (h : ascendingBy key l) :
    ascendingBy key (dropKey key k l) := List.Pairwise.filter _ h

theorem ascendingBy_insertAsc {α : Type} (key : α → Nat) (x : α) (l : List α) (h : ascendingBy key l)
    (hx : ∀ y ∈ l, key y ≠ key x) : ascendingBy key (insertAsc key x l) := by
  induction l with
  | nil => exact List.pairwise_singleton _ _
  | cons z t ih =>
    have hp := List.pairwise_cons.1 h
    unfold insertAsc
    split
    · rename_i hlt
      refine List.pairwise_cons.2 ⟨fun y hy => ?_, h⟩
      rcases List.mem_cons.1 hy with rfl | hy
      · exact hlt
      · exact Nat.lt_trans hlt (hp.1 y hy)
    · rename_i hge
      have hz : key z ≠ key x := hx z (by simp)
      refine List.pairwise_cons.2 ⟨fun y hy => ?_, ih hp.2 fun y hy => hx y (by simp [hy])⟩
      rcases (mem_insertAsc key x y t).1 hy with rfl | hy
      · omega
      · exact hp.1 y hy

/-- A put keeps a table ascending. -/
theorem ascendingBy_putKey {α : Type} (key : α → Nat) (x : α) (l : List α) (h : ascendingBy key l) :
    ascendingBy key (putKey key x l) :=
  ascendingBy_insertAsc key x _ (ascendingBy_dropKey key _ l h) fun _ hy => ((mem_dropKey ..).1 hy).2

/-- In an ascending table an item is the one found at its key. -/
theorem findKey_of_mem {α : Type} (key : α → Nat) (x : α) (l : List α) (h : ascendingBy key l) (hx : x ∈ l) :
    findKey key (key x) l = some x := by
  induction l with
  | nil => cases hx
  | cons z t ih =>
    have hp := List.pairwise_cons.1 h
    rcases List.mem_cons.1 hx with rfl | ht
    · simp [findKey]
    · have hlt := hp.1 x ht
      have hne : (key z == key x) = false := by simp; omega
      simp only [findKey, List.find?_cons, hne]
      exact ih hp.2 ht

/-- What is found lies in the table and has the key. -/
theorem mem_of_findKey {α κ : Type} [DecidableEq κ] (key : α → κ) (k : κ) (x : α) (l : List α)
    (h : findKey key k l = some x) : x ∈ l ∧ key x = k := by
  refine ⟨List.mem_of_find?_eq_some h, ?_⟩
  have := List.find?_some h
  simpa using this

/-! ## The signature (R82) -/

theorem sumOf_insertAsc {α : Type} (check : α → Word32) (key : α → Nat) (x : α) (l : List α) :
    sumOf check (insertAsc key x l) = check x + sumOf check l := by
  induction l with
  | nil => rfl
  | cons z t ih =>
    unfold insertAsc
    split
    · rfl
    · show check z + sumOf check (insertAsc key x t) = check x + (check z + sumOf check t)
      rw [ih, ← BitVec.add_assoc, ← BitVec.add_assoc, BitVec.add_comm (check z)]

theorem sumOf_split {α κ : Type} [DecidableEq κ] (check : α → Word32) (key : α → κ) (k : κ) (l : List α) :
    sumOf check l = sumOf check (withKey key k l) + sumOf check (dropKey key k l) := by
  induction l with
  | nil => rfl
  | cons z t ih =>
    have h : sumOf check (z :: t) = check z + sumOf check t := rfl
    rw [h, ih]
    by_cases hz : key z = k
    · have h1 : withKey key k (z :: t) = z :: withKey key k t := by simp [withKey, hz]
      have h2 : dropKey key k (z :: t) = dropKey key k t := by simp [dropKey, hz]
      rw [h1, h2]
      show _ = (check z + sumOf check (withKey key k t)) + _
      rw [BitVec.add_assoc]
    · have h1 : withKey key k (z :: t) = withKey key k t := by simp [withKey, hz]
      have h2 : dropKey key k (z :: t) = z :: dropKey key k t := by simp [dropKey, hz]
      rw [h1, h2]
      show _ = _ + (check z + sumOf check (dropKey key k t))
      rw [← BitVec.add_assoc, ← BitVec.add_assoc, BitVec.add_comm (check z)]

/-- The sum after a put: the items of its key leave and the item enters. -/
theorem sumOf_putKey {α : Type} (check : α → Word32) (key : α → Nat) (x : α) (l : List α) :
    sumOf check (putKey key x l) = sumOf check l - sumOf check (withKey key (key x) l) + check x := by
  rw [putKey, sumOf_insertAsc, sumOf_split check key (key x) l,
    BitVec.add_comm (sumOf check (withKey key (key x) l)), BitVec.add_sub_cancel, BitVec.add_comm]

/-- The sum after a drop. -/
theorem sumOf_dropKey {α κ : Type} [DecidableEq κ] (check : α → Word32) (key : α → κ) (k : κ) (l : List α) :
    sumOf check (dropKey key k l) = sumOf check l - sumOf check (withKey key k l) := by
  rw [sumOf_split check key k l, BitVec.add_comm (sumOf check (withKey key k l)), BitVec.add_sub_cancel]

theorem sumOf_one {α : Type} (check : α → Word32) (x : α) : sumOf check [x] = check x := BitVec.add_zero _

theorem sumOf_none {α : Type} (check : α → Word32) : sumOf check [] = 0 := rfl

theorem putStation_signed (r : Replica) (t : StationItem) (h : r.signature = r.sum) :
    (r.putStation t).signature = (r.putStation t).sum := by
  simp only [Replica.putStation, Replica.sum, refold, h, sumOf_putKey, sumOf_one, BitVec.sub_eq_add_neg]
  ac_rfl

theorem dropStation_signed (r : Replica) (n : Station) (h : r.signature = r.sum) :
    (r.dropStation n).signature = (r.dropStation n).sum := by
  simp only [Replica.dropStation, Replica.sum, refold, h, sumOf_dropKey, sumOf_none, BitVec.sub_eq_add_neg]
  ac_rfl

theorem putDock_signed (r : Replica) (d : DockRecord) (h : r.signature = r.sum) :
    (r.putDock d).signature = (r.putDock d).sum := by
  simp only [Replica.putDock, Replica.sum, refold, h, sumOf_putKey, sumOf_one, BitVec.sub_eq_add_neg]
  ac_rfl

theorem putAisle_signed (r : Replica) (a : AisleRecord) (h : r.signature = r.sum) :
    (r.putAisle a).signature = (r.putAisle a).sum := by
  simp only [Replica.putAisle, Replica.sum, refold, h, sumOf_putKey, sumOf_one, BitVec.sub_eq_add_neg]
  ac_rfl

theorem putJob_signed (r : Replica) (e : JobEntry) (h : r.signature = r.sum) :
    (r.putJob e).signature = (r.putJob e).sum := by
  simp only [Replica.putJob, Replica.sum, refold, h, sumOf_putKey, sumOf_one, BitVec.sub_eq_add_neg]
  ac_rfl

theorem dropJob_signed (r : Replica) (id : JobId) (h : r.signature = r.sum) :
    (r.dropJob id).signature = (r.dropJob id).sum := by
  simp only [Replica.dropJob, Replica.sum, refold, h, sumOf_dropKey, sumOf_none, BitVec.sub_eq_add_neg]
  ac_rfl

/-! ## The notice queue (R190) -/

/-- A notice queue within its capacity stays within it, and grows by at most one record. -/
theorem give_length (p : Port) (n : List Byte) (h : p.notices.length ≤ 32) :
    (p.give n).notices.length ≤ 32 ∧ p.notices.length ≤ (p.give n).notices.length := by
  unfold Port.give Config.noticeCapacity
  split
  · simp; omega
  · exact ⟨h, Nat.le_refl _⟩

theorem foldl_give_length (l : List (List Byte)) (p : Port) (h : p.notices.length ≤ 32) :
    (l.foldl Port.give p).notices.length ≤ 32 := by
  induction l generalizing p with
  | nil => exact h
  | cons n t ih => exact ih _ (give_length p n h).1

/-- A notice changes the queue and the overflow latch alone. -/
theorem give_frame (p : Port) (n : List Byte) :
    p.give n = { p with notices := (p.give n).notices, noticeOverflow := (p.give n).noticeOverflow } := by
  unfold Port.give
  split <;> rfl

end Sys2Proof.Machine
end

