-- ==== Sys2Proof/Laws/Snapshot.lean ====
section
/-! SUPPORT. The resynchronisation's readings: the key of the item a SNAP_ITEM carries (R175), the station's own item (R179),
and the next donor of a candidate list (R171). -/

namespace Sys2Proof.Machine

/-! ## The item carried (R175) -/

/-- A number below 256 is the byte it is written as. -/
theorem b8_toNat {n : Nat} (h : n < 256) : (b8 n).toNat = n := by simp [b8]; omega

/-- A number below 65536 is the word it is written as. -/
theorem be16_toNat {n : Nat} (h : n < 65536) : (b8 (n / 256)).toNat * 256 + (b8 n).toNat = n := by simp [b8]; omega

/-- A key that the bytes of a SNAP_ITEM can carry. -/
def ItemKey.carriable : ItemKey → Prop
  | .station n | .dock n | .aisle n => n < 256
  | .job id => id < 65536

/-- R175: the key read from the payload filled for an item is that item's. -/
theorem carriedKey_contents (n : Nat) (i : Item) (h : i.key.carriable) : carriedKey (b8 n :: i.contents) = i.key := by
  cases i with
  | job e => simpa [carriedKey, Item.contents, Item.key, JobEntry.bytes, byteAt, wordAt, be16, b8] using be16_toNat h
  | _ => simpa [carriedKey, Item.contents, Item.key, StationItem.bytes, DockRecord.bytes, AisleRecord.bytes, byteAt, b8]
      using b8_toNat h

/-! ## The own item (R179) -/

/-- An insertion among numbers keeps them. -/
theorem perm_insertAsc (x : Nat) (l : List Nat) : (insertAsc id x l).Perm (x :: l) := by
  induction l with
  | nil => exact List.Perm.refl _
  | cons y t ih =>
    unfold insertAsc
    split
    · exact List.Perm.refl _
    · exact (ih.cons y).trans (List.Perm.swap x y t)

/-- An insertion keeps numbers ascending. -/
theorem pairwise_insertAsc (x : Nat) (l : List Nat) (h : l.Pairwise (· ≤ ·)) : (insertAsc id x l).Pairwise (· ≤ ·) := by
  induction l with
  | nil => simp [insertAsc]
  | cons y t ih =>
    have hp := List.pairwise_cons.1 h
    unfold insertAsc
    split
    · rename_i lt
      have lt : x < y := lt
      refine List.pairwise_cons.2 ⟨fun z hz => ?_, h⟩
      rcases List.mem_cons.1 hz with rfl | hz
      · omega
      · have := hp.1 z hz; omega
    · rename_i ge
      have ge : ¬ x < y := ge
      refine List.pairwise_cons.2 ⟨fun z hz => ?_, ih hp.2⟩
      rcases (mem_insertAsc id x z t).1 hz with rfl | hz
      · omega
      · exact hp.1 z hz

/-- `ascending l` is the one ascending list of the members of `l`. -/
theorem eq_ascending_iff (m l : List Nat) : m = ascending l ↔ m.Pairwise (· ≤ ·) ∧ m.Perm l := by
  have perm : (ascending l).Perm l := by
    induction l with
    | nil => exact List.Perm.refl _
    | cons x t ih => exact (perm_insertAsc x _).trans (ih.cons x)
  have sorted : (ascending l).Pairwise (· ≤ ·) := by
    clear perm
    induction l with
    | nil => simp [ascending]
    | cons x t ih => exact pairwise_insertAsc x _ ih
  constructor
  · rintro rfl; exact ⟨sorted, perm⟩
  · rintro ⟨h, p⟩
    exact (p.trans perm.symm).eq_of_pairwise (fun a b _ _ h1 h2 => Nat.le_antisymm h1 h2) h sorted

/-- R179: what the judgement of the own item answers. -/
theorem State.ownItemSound_iff (s : State) : s.ownItemSound = true ↔ s.ownItem := by
  unfold State.ownItemSound State.ownItem
  cases s.rep.station s.me with
  | none => simp
  | some x =>
    have docks : x.docks = ascending (s.cfg.docks.map (·.1)) ↔ x.docks.Pairwise (· ≤ ·) ∧
        x.docks.Perm ((List.range (min s.cfg.dockCount 4)).map fun i => s.cfg.byte (7 + 3 * i)) := by
      rw [eq_ascending_iff, ConfigBlock.docks, List.map_map]; rfl
    cases s.cfg.isDispatch <;> simp [docks, and_assoc]

/-! ## The next donor (R171) -/

/-- R171: the next donor is the first number of the list above the present one, or the list's first. -/
theorem nextDonor_spec (l : List Station) (donor : Option Station) :
    (∀ pre n post, l = pre ++ n :: post → orZero donor < n → (∀ x ∈ pre, x ≤ orZero donor) →
      nextDonor l donor = some n) ∧
    ((∀ x ∈ l, x ≤ orZero donor) → nextDonor l donor = l.head?) := by
  constructor
  · rintro pre n post rfl lt le
    have none : pre.find? (fun k => decide (orZero donor < k)) = none := by
      simpa [List.find?_eq_none] using le
    simp [nextDonor, List.find?_append, none, lt]
  · intro le
    have none : l.find? (fun k => decide (orZero donor < k)) = none := by
      simpa [List.find?_eq_none] using le
    simp [nextDonor, none]

end Sys2Proof.Machine
end

