-- ==== Sys2Proof/Laws/Taking.lean ====
section
/-! SUPPORT. What a command's common shell does: the taking of a request (R189) or a frame (R38), the RESET pin's hold (log
4), and the LEAVE mark judged afterwards (R52). -/

namespace Sys2Proof.Machine

/-- A command's effect while no reset is held. -/
theorem State.run_of_awake {s : State} (h : s.awake) (f : State → State) : s.run f = (f s).markLeave := by
  simp only [State.awake] at h
  simp [State.run, h]

/-- While the RESET pin is held a command has no effect (log 4). -/
theorem State.run_of_held {s : State} (h : s.port.resetHeld = true) (f : State → State) : s.run f = s := by
  simp [State.run, h]

/-- R52: outside DRAINING the LEAVE mark is not judged. -/
theorem State.markLeave_of_ne {s : State} (h : s.mem.st ≠ .draining) : s.markLeave = s := by
  simp [State.markLeave, h]

/-- A request at the head is popped, and has its effect. -/
theorem State.takeRequest_of {s : State} {kind : Nat} {r : List Byte} (h : s.request kind = some r)
    (f : List Byte → State → State) : s.takeRequest kind f = f r s.popRequest := by
  simp [State.takeRequest, h]

/-- A request kept at the head changes nothing; otherwise it is popped, and has its effect. -/
theorem State.takeRequestUnless_of {s : State} {kind : Nat} {r : List Byte} (h : s.request kind = some r)
    (held : List Byte → State → Bool) (f : List Byte → State → State) :
    s.takeRequestUnless kind held f = if held r s then s else f r s.popRequest := by
  simp [State.takeRequestUnless, h]

/-- R156: a crane request, refused on a dispatch station. -/
theorem State.craneRequest_of {s : State} {kind : Nat} {r : List Byte} (h : s.request kind = some r)
    (f : List Byte → State → State) :
    s.craneRequest kind f = if s.cfg.isDispatch then s.popRequest.refuse kind wrongRole 0 0 else f r s.popRequest := by
  simp [State.craneRequest, State.takeRequest, h]

/-- R38: a frame applied. -/
theorem State.takeFrame_of {s : State} {fr : Frame} (h : s.applies fr) {p : Frame → Bool} (hp : p fr = true)
    (f : Frame → State → State) : s.takeFrame p f = f fr (s.popFrame.restartSilence fr.sender) := by
  obtain ⟨_, on, head, hears⟩ := h
  unfold State.takeFrame
  split
  · next e => simp [e] at head
  · next x y e =>
    simp only [e, List.head?_cons, Option.some.injEq] at head
    subst head
    have k : s.popFrame.hears x = true := by simpa [State.hears] using hears
    simp [on, hp, k]

/-- A frame that a command does not select is left in the queue. -/
theorem State.takeFrame_of_not {s : State} {p : Frame → Bool} (f : Frame → State → State)
    (h : ∀ fr, s.link.rxq.head? = some fr → p fr = false) : s.takeFrame p f = s := by
  unfold State.takeFrame
  split
  · rfl
  · next x y e => simp [h x (by simp [e])]

end Sys2Proof.Machine
end

