-- ==== Sys2Proof/Tests/Slice0.lean ====
section
/-! SUPPORT. The model's own tests: small states built by the helpers below, the checks of operands (WellFormed), the two
frame checks, a state that meets the hypotheses of each statement (`witness_…`), and single steps (`test_…`). -/

namespace Sys2Proof.Tests

open Sys2Proof.Machine

-- One theorem after another: the gate's memory bound does not hold a thread for each.
set_option Elab.async false

/-! ## Small states -/

/-- The state after a command. -/
def after (c : Instr) (s : State) : State :=
  match exec c s with
  | .next t => t
  | _ => s

/-- The default configuration with a number, a role, an aisle and an end. -/
def config (number role aisle craneEnd : Byte) : ConfigBlock :=
  (((ConfigBlock.default.setIfInBounds 0 number).setIfInBounds 1 role).setIfInBounds 2 aisle).setIfInBounds 3 craneEnd

/-- A Roster item of a crane station. -/
def craneItem (n aisle : Nat) (e : CraneEnd) : StationItem :=
  { number := n, role := .crane, aisle := aisle, craneEnd := e, docks := [], backlog := 7, runLength := 0, pos := 0
    level := 0, craneState := 1, draining := false, syncing := false }

/-- A Roster item of a dispatch station. -/
def deskItem (n : Nat) (docks : List Nat) : StationItem :=
  { number := n, role := .dispatch, aisle := 0, craneEnd := .absent, docks := docks, backlog := 0, runLength := 0
    pos := 0, level := 0, craneState := 0, draining := false, syncing := false }

/-- A record of aisle 2, TANDEM. -/
def tandem (low high : Option Station) (b : Nat) (st : BoundaryState) : AisleRecord :=
  { aisle := 2, form := .tandem, low := low, high := high, sole := none, boundary := some b, state := st }

/-- A job record in aisle 2: STORE from the dock of the low end to a rack place. -/
def storeJob (id pred : JobId) : JobRecord :=
  { id := id, kind := 1, aisle := 2, srcForm := 1, srcPos := 0, srcLevel := 0, dstForm := 2, dstPos := 20, dstLevel := 3
    classPrio := 1, pred := pred }

/-- A RETRIEVE from a rack place to dock 4. -/
def fetchJob (id pred : JobId) : JobRecord :=
  { id := id, kind := 2, aisle := 2, srcForm := 0, srcPos := 9, srcLevel := 1, dstForm := 1, dstPos := 0, dstLevel := 0
    classPrio := 2, pred := pred }

/-- An entry of a job in a state. -/
def entryOf (j : JobRecord) (st : JobState) (owner : Option Station) : JobEntry :=
  { job := j, state := st, attempt := 1, owner := owner, loaded := false, loadClass := j.weight, reason := 0, bids := [] }

/-- Dock 4 with two places, one of them reserved, served by a station. -/
def dock4 (server : Option Station) : DockRecord :=
  { number := 4, capacity := 3, free := 1, reserved := 1, occupied := 1, server := server }

/-- The ids of the jobs below: origin 9. -/
def idA : JobId := 9 * 2048 + 1
/-- A second id. -/
def idB : JobId := 9 * 2048 + 2
/-- A third id. -/
def idC : JobId := 9 * 2048 + 3

/-- A replica with stations 5 (LOW of aisle 2), 6 (HIGH) and 9 (dispatch, dock 4). -/
def floor (jobs : List JobEntry) : Replica :=
  { roster := [craneItem 5 2 .low, craneItem 6 2 .high, deskItem 9 [4]], docks := [dock4 (some 9)]
    aisles := [tandem (some 5) (some 6) 8 .set], jobs := jobs, signature := 0 }

/-- The floor with the signature its items give. -/
def signedFloor (jobs : List JobEntry) : Replica := { floor jobs with signature := (floor jobs).sum }

/-- A station in a state with a configuration and a replica. -/
def station (cfg : ConfigBlock) (st : StationState) (r : Replica) : State :=
  { State.reset with cfg := cfg, mem.st := st, mem.cause := .none, rep := r }

/-- Crane station 5, LOW of aisle 2, ACTIVE, its crane IDLE at the low end. -/
def worker (jobs : List JobEntry) : State :=
  { station (config 5 1 2 1) .active (floor jobs) with seqr.crane.state := .idle }

/-- Dispatch station 9, ACTIVE. -/
def clerk (jobs : List JobEntry) : State := station (config 9 2 0 3) .active (floor jobs)

/-- Crane station 6, HIGH of aisle 2. -/
def partner6 (pos : Nat) : State :=
  { station (config 6 1 2 2) .active (floor []) with seqr.crane.state := .idle, seqr.crane.pos := pos }

/-- A request record at the head of the request queue. -/
def asked (s : State) (r : List Byte) : State := { s with port.requests := [r] }

/-- A frame at the head of the receive queue. -/
def heard (s : State) (n : Station) (k : FrameKind) (p : List Byte) : State :=
  { s with link.rxq := [{ sender := n, kind := k, sequence := 0, payload := p }] }

/-- The frame `heard` puts there. -/
def frameOf (n : Station) (k : FrameKind) (p : List Byte) : Frame := { sender := n, kind := k, sequence := 0, payload := p }

/-- The stations' states with a state. -/
def inState (s : State) (st : StationState) : State := { s with mem.st := st }

/-- A run-list job of an entry in a phase. -/
def runJob (e : JobEntry) (phase : Phase) (loaded : Bool) : RunJob := { e.runJob with phase := phase, loaded := loaded }

/-- A step in a status, for a job. -/
def stepOf (act : StepAct) (job : Option JobId) (status : StepStatus) : Step :=
  { id := 7, act := act, job := job, estimate := 100, issueTime := 0, first := true, status := status, expiry := 12000
    loadClass := 0, entry := some 5, yield := false }

/-- A crane station whose crane holds a step. -/
def steps (s : State) (st : Step) (state : CraneState) (stall : StallCause) : State :=
  { s with seqr.crane.step := some st, seqr.crane.state := state, seqr.crane.stall := stall }

/-! ## Operands (WellFormed): one term out of range for each check -/

theorem test_wf_clear_location : (Instr.clearLocationRead 0x30).wf = true ∧ (Instr.clearLocationRead 0x35).wf = false := by
  decide
theorem test_wf_configuration : (Instr.configurationBlockWrite 0x141 0).wf = true ∧
    (Instr.configurationBlockWrite 0x142 0).wf = false := by decide
theorem test_wf_profile : (Instr.profileTableWrite 0x11FF 0).wf = true ∧ (Instr.profileTableWrite 0x1200 0).wf = false := by
  decide
theorem test_wf_ignored : (Instr.ignoredWrite 0xFFFF 0).wf = true ∧ (Instr.ignoredWrite 0x10000 0).wf = false ∧
    (Instr.ignoredWrite 0x10 0).wf = false := by decide
theorem test_wf_frame_start : (Instr.frameStart 31 true).wf = true ∧ (Instr.frameStart 32 true).wf = false := by decide
theorem test_wf_silence : (Instr.silenceTimerExpiry 31).wf = true ∧ (Instr.silenceTimerExpiry 0).wf = false ∧
    (Instr.silenceTimerExpiry 32).wf = false := by decide
theorem test_wf_window : (Instr.bidWindowClose 65535).wf = true ∧ (Instr.bidWindowClose 0).wf = false := by decide
theorem test_wf_custody : (Instr.custodialTimerExpiry 1).wf = true ∧ (Instr.custodialTimerExpiry 65536).wf = false := by
  decide

/-! ## Checks (R22, R82) -/

/-- The digits 1 to 9 as bytes. -/
def digits : List Byte := [0x31, 0x32, 0x33, 0x34, 0x35, 0x36, 0x37, 0x38, 0x39]

theorem test_crc16 : crc16 digits = 0x29B1#16 := by decide +kernel
theorem test_crc32 : crc32 digits = 0xCBF43926#32 := by decide +kernel

/-! ## No word spells a command -/

theorem test_no_word (nbits w : Nat) : decodeTableWord nbits w = none := rfl

/-! ## Witnesses: states that meet the hypotheses of the statements, clause by clause

`asked`, `heard` and `steps` change the request queue, the receive queue and the crane's step alone: a witness reads the
other hypotheses off the state they are put on. -/

/-- A crane station whose replica is signed, with one entry and a command that waits. -/
def signedWorker (c : Instr) : State :=
  { worker [] with rep := signedFloor [entryOf (storeJob idA 0) .opened none], pending := [c] }

theorem witness_SignatureKept : (signedWorker .applyBid).signed ∧
    step (signedWorker .applyBid) = .next (after .applyBid { signedWorker .applyBid with pending := [] }) :=
  ⟨by decide +kernel, rfl⟩

/-- A station whose own frame is on the line. -/
def onLine : State :=
  { worker [] with link.line := .own, link.txq := [{ kind := .leave, payload := [], sequence := some 1, fill := .fixed }] }

theorem witness_CapacitiesKept : State.reset.bounded ∧ onLine.bounded := by
  refine ⟨⟨?_, ?_, ?_, ?_, ?_, ?_, ?_, ?_, nofun⟩, ⟨?_, ?_, ?_, ?_, ?_, ?_, ?_, ?_, fun _ => ⟨?_, _, _, rfl, rfl⟩⟩⟩ <;>
    decide +kernel

theorem witness_KeysKept : ((signedWorker .applyBid).keyed ∧
    step (signedWorker .applyBid) = .next (after .applyBid { signedWorker .applyBid with pending := [] })) ∧
    ((worker []).quiet ∧ (worker []).allotted) :=
  ⟨⟨by decide +kernel, rfl⟩, ⟨nofun, nofun, fun _ => ⟨rfl, rfl⟩, nofun⟩, ⟨fun _ _ => rfl, nofun⟩⟩

theorem witness_TablesKept : (signedWorker .applyBid).tabled ∧ (signedWorker .applyBid).rep.jobs.length ≤ 64 ∧
    (∀ rest, (signedWorker .applyBid).pending ≠ .applySnapItem :: rest) := by
  refine ⟨⟨?_, ?_, ?_⟩, by decide, fun _ h => nomatch h⟩
  · intro e he
    cases List.mem_singleton.1 he
    exact ⟨rfl, fun h => absurd rfl h, by decide, List.Pairwise.nil, by decide⟩
  · intro d hd
    cases List.mem_singleton.1 hd
    rfl
  · intro a ha
    cases List.mem_singleton.1 ha
    exact ⟨nofun, fun _ => ⟨rfl, ⟨8, rfl, by decide, by decide⟩, rfl⟩⟩

/-- The step of a crane that travels with job A. -/
def travelStep : Step := stepOf (.travel 20 3) (some idA) .outstanding

theorem witness_CraneKept :
    Crane.sound { Crane.initial with state := .stepping, step := some travelStep } ∧
    Crane.sound { Crane.initial with state := .stalled, stall := .overdue, step := some { travelStep with status := .overdue }, pos := 127, level := 31 } ∧
    Crane.initial.sound := by
  refine ⟨⟨by decide, by decide, ⟨fun _ => ⟨_, rfl, rfl⟩, fun _ => rfl⟩, ⟨nofun, ?_⟩, by decide⟩,
    ⟨by decide, by decide, ⟨nofun, ?_⟩, ⟨fun _ => ⟨_, rfl, rfl⟩, fun _ => rfl⟩, by decide⟩,
    ⟨by decide, by decide, ⟨nofun, nofun⟩, ⟨nofun, nofun⟩, by decide⟩⟩
  · rintro ⟨st, h, hs⟩
    cases h
    cases hs
  · rintro ⟨st, h, hs⟩
    cases h
    cases hs

/-- A FAULTED station with its replica kept. -/
def faulted : State := { State.reset with mem.st := .faulted, rep := floor [] }

theorem witness_QuietKept : faulted.quiet ∧ State.reset.quiet ∧ State.quiet { State.reset with mem.st := .listening } ∧
    (State.quiet { onLine with link.rxq := [{ sender := 7, kind := .leave, sequence := 0, payload := [] }] } ∧
      State.leaveLast { onLine with link.rxq := [{ sender := 7, kind := .leave, sequence := 0, payload := [] }] }) :=
  ⟨⟨nofun, nofun, fun _ => ⟨rfl, rfl⟩, fun _ => by decide⟩,
    ⟨fun _ => ⟨⟨.reset, rfl⟩, by decide⟩, nofun, fun _ => ⟨rfl, rfl⟩, nofun⟩,
    ⟨nofun, fun _ => by decide, fun _ => ⟨rfl, rfl⟩, nofun⟩, ⟨nofun, nofun, fun _ => ⟨rfl, rfl⟩, nofun⟩, by decide +kernel⟩

/-- Crane station 5 at position 40 with job A, WAITING, at the head of its run list. -/
def ready : State :=
  let e := entryOf (storeJob idA 0) .awarded (some 5)
  { worker [e] with seqr.runList := [runJob e .waiting false], seqr.crane.pos := 40 }

theorem witness_TravelKeepsToOwnSide :
    step { ready with pending := [.stepIssue] } = .next (after .stepIssue ready) ∧ ready.seqr.crane.state ≠ .stepping ∧
    (after .stepIssue ready).seqr.crane.state = .stepping ∧
    (after .stepIssue ready).seqr.crane.step.map Step.act = some (.travel 0 0) ∧
    (after .stepIssue ready).cfg.craneEnd = .low := ⟨rfl, by decide +kernel⟩

theorem witness_SettingsAndCraneFrame : ((Instr.noticePortRead).wf = true ∧ Instr.noticePortRead ≠ .resetPin ∧
      exec .noticePortRead State.reset = .next (after .noticePortRead State.reset) ∧
      Instr.noticePortRead ∉ [.selectRelease, .joinRequest, .stepDone] ∧ faulted.mem.st ≠ .offline) ∧
    (exec .submit faulted = .next (after .submit faulted) ∧ Instr.submit ≠ .resetRequest ∧
      Instr.submit ∉ [.homed, .stepDone, .stepFault, .retry, .abandon, .modeManual, .modeAuto, .modeOutOfService,
        .modeInService, .stepIssue, .stepTimerExpiry, .applySnapEnd]) :=
  ⟨⟨rfl, nofun, rfl, by decide, by decide⟩, rfl, nofun, by decide⟩

theorem witness_ReplicaFrame : exec .faultedDiscard faulted = .next (after .faultedDiscard faulted) ∧ faulted.quiet ∧
    faulted.mem.st = .faulted ∧ (after .faultedDiscard faulted).mem.st = .faulted :=
  ⟨rfl, witness_QuietKept.1, rfl, by decide +kernel⟩

/-! ### The Local Port -/

/-- A transaction in progress, its pointer in a region. -/
def inProgress (write void : Bool) (start pointer : Nat) : State :=
  { State.reset with port.txn := some { write := write, start := start, pointer := pointer, void := void } }

/-- A first byte after the access byte of its direction, at an address of a region. -/
theorem attends_first (s : State) (write : Bool) (a : Nat) (h : s.port.resetHeld = false) (n : s.port.txn = none)
    (r : (regionOf a).isSome = true) : s.attends (some (if write then 2 else 1)) write a := ⟨h, .inl ⟨n, rfl, r⟩⟩

/-- A further byte of a transaction in progress. -/
theorem attends_further (write : Bool) (start a : Nat) (r : (regionOf start).isSome = true) :
    (inProgress write false start a).attends none write a := ⟨rfl, .inr ⟨_, rfl, rfl, rfl, rfl, rfl, r⟩⟩

theorem witness_InterruptFlags : State.reset.attends (some 2) true 0x10 ∧ State.reset.attends (some 1) false 0x34 ∧
    (inProgress false false 0x20 0x30).attends none false 0x30 :=
  ⟨attends_first _ true _ rfl rfl rfl, attends_first _ false _ rfl rfl rfl, attends_further false _ _ rfl⟩

theorem witness_DataBytesMove :
    (State.reset.attends (some 2) true 0x0141 ∧ dataByteOf (.configurationBlockWrite 0x0141 0 (some 2)) = some (true, 0x0141, some 2) ∧
      regionOf 0x0141 = some (0x0100, 66) ∧ 0x0141 + 1 = 0x0100 + 66) ∧
    ((inProgress false false 0x0400 0x0400).attends none false 0x0400 ∧ regionOf 0x0400 = some (0x0400, 496)) ∧
    (dataByteOf (.noticePortRead (some 3)) = some (false, 0x0280, some 3) ∧ (3 : Byte) ≠ 1 ∧ (3 : Byte) ≠ 2 ∧
      State.reset.port.txn = none ∧ { State.reset with port.resetHeld := true }.port.resetHeld = true) ∧
    (dataByteOf (.requestPortWrite 2) = some (true, 0x0200, none) ∧
      (inProgress true true 0x0200 0x0200).port.txn = some { write := true, start := 0x0200, pointer := 0x0200, void := true }) ∧
    (regionOf 0x0201 = none ∧ dataByteOf (.ignoredWrite 0x0201 0 (some 2)) = some (true, 0x0201, some 2) ∧
      regionOf 0xFFFF = none ∧ (inProgress true false 0x0201 0x0202).awake) ∧
    (State.reset.awake ∧ (some 1 : Opening) = some (if !true then 2 else 1) ∧ (some 2 : Opening) = some (if !false then 2 else 1)) :=
  ⟨⟨attends_first _ true _ rfl rfl rfl, by decide⟩, ⟨attends_further false _ _ rfl, by decide⟩, by decide⟩

/-- Reset with a notice of four bytes queued. -/
def noticed (pos : Nat) : State := { State.reset with port.notices := [[4, 1, 1, 0]], port.noticePos := pos }

/-- Reset with a record of two bytes begun. -/
def begun (requests : List (List Byte)) (first : Byte) : State :=
  { State.reset with port.asm := [first], port.requests := requests }

theorem witness_RequestAndNoticePorts : (State.reset.attends (some 2) true 0x0200 ∧ (noticed 0).attends (some 1) false 0x0280 ∧
      State.attends { State.reset with port.discard := true } (some 2) true 0x0200) ∧
    ((begun [] 3).port.asm.length + 1 < (3 : Byte).toNat ∧ (2 : Byte).toNat ≤ (begun [] 2).port.asm.length + 1 ∧
      8 ≤ (begun (List.replicate 8 [2, 1]) 2).port.requests.length) ∧
    (requestLength (byteAt [2, 0] 1) = none ∧ requestLength (byteAt [2, 16] 1) = none ∧
      requestLength (byteAt [3, 1, 0] 1) = some 2 ∧ [3, 1, (0 : Byte)].length ≠ 2 ∧ byteAt [3, 1, 0] 1 ≠ 5) ∧
    (State.reset.port.notices = [] ∧ (noticed 2).port.noticePos + 1 < 4 ∧ 4 ≤ (noticed 3).port.noticePos + 1) :=
  ⟨⟨attends_first _ true _ rfl rfl rfl, attends_first _ false _ rfl rfl rfl, attends_first _ true _ rfl rfl rfl⟩, by decide⟩

theorem witness_ConfigurationAndProfileWritten :
    (State.reset.attends (some 2) true 0x0100 ∧ State.reset.attends (some 2) true 0x0141 ∧ State.reset.mem.st = .offline) ∧
    (State.reset.attends (some 2) true (0x1000 + 2 * 255) ∧ (inProgress true false 0x11FF 0x1000).attends none true (0x1000 + 2 * 0)) ∧
    (State.reset.attends (some 2) true (0x1001 + 2 * 255) ∧ State.reset.port.firstByte = none) ∧
    (faulted.attends (some 2) true 0x11FF ∧ faulted.mem.st ≠ .offline) :=
  ⟨⟨attends_first _ true _ rfl rfl rfl, attends_first _ true _ rfl rfl rfl, rfl⟩,
    ⟨attends_first _ true _ rfl rfl rfl, attends_further true _ _ rfl⟩, ⟨attends_first _ true _ rfl rfl rfl, rfl⟩,
    attends_first _ true _ rfl rfl rfl, by decide⟩

theorem witness_WindowReadsAndIgnoredWrites :
    (State.reset.attends (some 2) true 0 ∧ hasWriteBehaviour 0 = false) ∧
    (State.reset.attends (some 2) true 0x0FFF ∧ hasWriteBehaviour 0x0FFF = false) ∧
    (State.reset.attends (some 1) false 0x2F ∧ State.reset.attends (some 1) false 0x35 ∧
      State.reset.attends (some 1) false 0x3F ∧ State.reset.attends (some 1) false 0x0100 ∧
      State.reset.attends (some 1) false 0x0141 ∧ State.reset.attends (some 1) false 0x0200 ∧
      State.reset.attends (some 1) false 0x1000 ∧ State.reset.attends (some 1) false 0x11FF) ∧
    (steps ready travelStep .stepping .none).seqr.crane.step = some travelStep := by
  refine ⟨⟨attends_first _ true _ rfl rfl rfl, rfl⟩, ⟨attends_first _ true _ rfl rfl rfl, rfl⟩, ?_, rfl⟩
  refine ⟨?_, ?_, ?_, ?_, ?_, ?_, ?_, ?_⟩ <;> exact attends_first _ false _ rfl rfl rfl

/-- Reset with the last slot of the board captured. -/
def capturedSlot : State := { State.reset with port.captured := [(0x0FE0, [1, 2])] }

theorem witness_WindowViews :
    (capturedSlot.attends (some 1) false 0x0FFF ∧ slotOf 0x0FFF = some (0x0FE0, 32) ∧
      findKey Prod.fst 0x0FE0 capturedSlot.port.captured = some (0x0FE0, [1, 2])) ∧
    (State.reset.attends (some 1) false 0x0400 ∧ slotOf 0x0400 = some (0x0400, 16) ∧
      findKey Prod.fst 0x0400 State.reset.port.captured = none) ∧
    ((worker []).rep.aisle 2 = some (tandem (some 5) (some 6) 8 .set) ∧ (worker []).rep.aisle 7 = none) ∧
    (ready.seqr.runList[0]?.map RunJob.marks) = some [] ∧ (worker []).seqr.runList.length ≤ 3 :=
  ⟨⟨attends_first _ false _ rfl rfl rfl, by decide⟩, ⟨attends_first _ false _ rfl rfl rfl, by decide⟩, by decide +kernel⟩

theorem witness_SelectReleaseAndReset :
    ((0 / 64 : Nat) ∈ { State.reset with port.touched := [0] }.port.touched ∧ State.reset.mem.st = .offline) ∧
    (asked State.reset [2, 4]).requested 4 [2, 4] ∧ { State.reset with port.resetHeld := true }.port.resetHeld = true := by
  decide

/-! ### Membership -/

/-- A station in OFFLINE with a JOIN request at the head. -/
def joining (cfg : ConfigBlock) (crane : CraneState) (pos : Nat) : State :=
  asked { State.reset with cfg := cfg, seqr.crane.state := crane, seqr.crane.pos := pos } [2, 1]

/-- The JOIN record. -/
abbrev joinRecord : List Byte := [2, 1]

/-- R40 (`ConfigBlock.sound_iff` spells out the ranges that `sound` stands for here). -/
theorem witness_JoinRequestTaken :
    ((joining (config 9 2 0 3) .unknown 0).requested 1 joinRecord ∧ (config 9 2 0 3).sound = true ∧
      (config 9 2 0 3).isDispatch = true) ∧
    ((joining (config 5 1 2 1) .idle 63).requested 1 joinRecord ∧ (config 5 1 2 1).sound = true ∧
      (config 5 1 2 1).isDispatch = false ∧ (config 5 1 2 1).craneEnd = .low ∧ 63 / 8 < (config 5 1 2 1).home) ∧
    ((config 6 1 2 2).sound = true ∧ (config 6 1 2 2).craneEnd = .high ∧ (config 6 1 2 2).home < 72 / 8) ∧
    ((config 5 1 2 1).home ≤ 64 / 8 ∧ 71 / 8 ≤ (config 6 1 2 2).home) ∧
    ((config 0 1 2 1).sound = false ∧ (config 32 1 2 1).sound = false ∧ (config 31 1 2 1).sound = true) ∧
    (joining (config 5 1 2 1) .unknown 0).seqr.crane.state = .unknown ∧
    (asked faulted joinRecord).requested 1 joinRecord ∧
    -- Class 2 touched: its first and last entries, and the entries beside them.
    (let s := { joining (config 5 1 2 1) .idle 63 with port.touched := [2] };
      s.requested 1 joinRecord ∧ s.joinRefusal = 0 ∧ [127, 128, 191, 192].map (fun i => decide (i / 64 ∈ s.port.touched)) =
        [false, true, true, false]) ∧
    -- R187: a retry limit of 9 on a dispatch station and on a crane station (log 65).
    [config 9 2 0 3, config 5 1 2 1].map (fun c => ConfigBlock.sound (c.setIfInBounds 0x3F 9)) = [true, false] := by
  decide +kernel

/-- The LEAVE record. -/
abbrev leaveRecord : List Byte := [2, 2]

theorem witness_LeavingsTaken : ((asked (clerk []) leaveRecord).requested 2 leaveRecord ∧ (clerk []).mem.st = .active) ∧
    ((asked State.reset leaveRecord).requested 2 leaveRecord ∧ State.reset.mem.st ≠ .active) ∧
    ((asked faulted [2, 3]).requested 3 [2, 3] ∧ faulted.mem.st = .faulted) ∧
    ((asked (clerk []) [2, 3]).requested 3 [2, 3] ∧ (clerk []).mem.st ≠ .faulted) ∧
    ((heard (clerk []) 5 .lost [9]).applies (frameOf 5 .lost [9]) ∧ byteAt [9] 0 = (clerk []).me) ∧
    (heard (clerk []) 9 .leave []).applies (frameOf 9 .leave []) := by decide +kernel

/-- A LISTENING station that has heard `heard`. -/
def listener (heard : List Station) (hashes : List (Station × Word16)) : State :=
  { station (config 5 1 2 1) .listening Replica.empty with
    mem.heard := heard, mem.heardHash := hashes, mem.hash := some 3, mem.listenTimer := .running 1000, mem.founding := true }

/-- The payload of a JOIN of crane station 5 with parameter hash 3. -/
def joinOf5 : List Byte := [1, 2, 1, 0, 0, 8, 0, 3, 0]

/-- A JOIN of the wrong role, rejected with FIELDS. -/
def strayJoin : List Byte := [3]

theorem witness_ListeningAndFounding :
    (((listener [] []).mem.listenTimer = .running 1000 ∧ (listener [] []).mem.st = .listening) ∧
      ((6, 4) ∈ (listener [6] [(6, 4)]).mem.heardHash ∧ (listener [6] [(6, 4)]).mem.hash ≠ some 4) ∧
      ((∀ p ∈ (listener [6] [(6, 3)]).mem.heardHash, (listener [6] [(6, 3)]).mem.hash = some p.2) ∧
        (listener [6] [(6, 3)]).mem.heard ≠ []) ∧
      ((heard (listener [] []) 5 .join joinOf5).link.rxq = [frameOf 5 .join joinOf5] ∧
        (listener [] []).mem.founding = true ∧ (listener [] []).me = 5 ∧ (listener [] []).rep = Replica.empty)) ∧
    (Replica.empty.acceptsJoin (some 3) joinOf5 ∧ ¬ Replica.empty.acceptsJoin (some 3) strayJoin) ∧
    ((heard (listener [] []) 6 .digest []).link.rxq = [frameOf 6 .digest []] ∧ (6 : Station) ≠ (listener [] []).me ∧
      (listener [] []).mem.heard.length < 31 ∧ (listener [] []).mem.heardHash.length < 31 ∧ faulted.mem.st = .faulted) := by
  refine ⟨by decide +kernel, ⟨?_, ?_⟩, by decide +kernel⟩
  · exact (Replica.joinReason_spec ..).1.1 (by decide +kernel)
  · rw [← (Replica.joinReason_spec ..).1]
    decide +kernel

/-- An ACTIVE station whose timers run. -/
def timed (txq : List TxFrame) : State :=
  { clerk [] with mem.presence := .running 250, mem.silence := [(5, .running 750), (7, .running 700)], link.txq := txq }

/-- A queued DIGEST. -/
def digestFrame : TxFrame := { kind := .digest, payload := [], sequence := none, fill := .digest }

/-- A queued DOCK. -/
def dockFrame : TxFrame := { kind := .dock, payload := [4, 1], sequence := none, fill := .fixed }

theorem witness_PresenceAndSilenceExpire :
    ((timed []).mem.presence = .running 250 ∧ (timed []).onLink = true ∧ (∀ f ∈ (timed []).link.txq, f.kind ≠ .digest) ∧
      (timed []).link.txq.length < 12) ∧
    digestFrame ∈ (timed [digestFrame]).link.txq ∧ 12 ≤ (timed (List.replicate 12 dockFrame)).link.txq.length ∧
    { timed [] with mem.st := .listening }.onLink = false ∧
    (findKey Prod.fst 5 (timed []).mem.silence = some (5, .running 750) ∧ (timed []).rep.present 5 = true) ∧
    (findKey Prod.fst 7 (timed []).mem.silence = some (7, .running 700) ∧ (timed []).rep.present 7 = false) ∧
    (timed []).running = true := by decide +kernel

/-- The floor without station 5. -/
def without5 : State :=
  { clerk [] with
    rep := { floor [] with roster := [craneItem 6 2 .high, deskItem 9 [4]], aisles := [tandem none (some 6) 8 .frozen] }
    mem.hash := some 3 }

/-- A JOIN of dispatch station 5 with the dock 15 of four places, all occupied. -/
def joinWithDock : List Byte := [2, 0, 0, 0, 0, 0, 0, 3, 1, 15, 4, 4]

/-- The floor that the ending of station 5's presence leaves. -/
def ended5 : Replica := without5.rep

theorem witness_JoinApplied :
    (((heard without5 5 .join joinOf5).applies (frameOf 5 .join joinOf5) ∧ without5.running = true ∧
        without5.rep.present 5 = false) ∧
      ((clerk []).keyed ∧ (heard (clerk []) 5 .join joinOf5).applies (frameOf 5 .join joinOf5) ∧
        (clerk []).rep.station 5 = some (craneItem 5 2 .low) ∧
        ended5.roster = (clerk []).rep.roster.filter (fun y => y.number != 5))) ∧
    (without5.rep.acceptsJoin without5.mem.hash joinOf5 ∧ without5.rep.acceptsJoin without5.mem.hash joinWithDock ∧
      (clerk []).rep.vacated ended5 5) ∧
    (without5.rep.firstRejects without5.mem.hash strayJoin 1 ∧ without5.rep.firstRejects (some 4) joinOf5 2 ∧
      (floor []).firstRejects (some 3) joinOf5 3 ∧ without5.rep.firstRejects (some 3) (joinOf5.set 2 3 |>.set 5 0) 4 ∧
      without5.rep.firstRejects (some 3) (joinOf5.set 3 64) 5 ∧
      without5.rep.firstRejects (some 3) (joinWithDock.set 10 3) 6) := by
  refine ⟨by decide +kernel, ⟨?_, ?_, fun k => ?_, fun k => ?_⟩, ?_, ?_, ?_, ?_, ?_, ?_⟩
  · exact (Replica.joinReason_spec ..).1.1 (by decide +kernel)
  · exact (Replica.joinReason_spec ..).1.1 (by decide +kernel)
  · by_cases h : k = 4
    · subst h; decide +kernel
    · have no : (4 == k) = false := by simpa using fun e : 4 = k => h e.symm
      simp [Replica.dock, findKey, ended5, without5, clerk, station, floor, dock4, no]
  · by_cases h : k = 2
    · subst h; decide +kernel
    · have no : (2 == k) = false := by simpa using fun e : 2 = k => h e.symm
      simp [Replica.aisle, findKey, ended5, without5, clerk, station, floor, tandem, no]
  all_goals exact ((Replica.joinReason_spec ..).2 _ (by decide)).1 (by decide +kernel)

theorem witness_DepartureApplied :
    ((clerk []).keyed ∧ (heard (clerk []) 6 .lost [5]).applies (frameOf 6 .lost [5]) ∧ (clerk []).running = true ∧
      5 ≠ (clerk []).me ∧ (clerk []).rep.present 5 = true ∧ byteAt [5] 0 = 5) ∧
    (heard (clerk []) 5 .leave []).applies (frameOf 5 .leave []) ∧
    ((floor [entryOf (storeJob idA 0) .awarded (some 5)]).entry idA).map JobEntry.owner = some (some 5) ∧
    ((partner6 0).cfg.isDispatch = false ∧ (partner6 0).cfg.craneEnd.tandem = true ∧ (partner6 0).partner = some 5) := by
  decide +kernel

/-- A DIGEST payload whose signature is 0, with a flags byte. -/
def digestOf (flags : Byte) : List Byte := [0, 0, 0, 0, flags, 0, 3, 0, 0, 0, 0, 0, 0]

theorem witness_DigestApplied :
    ((clerk []).keyed ∧ (heard (clerk []) 5 .digest (digestOf 0)).applies (frameOf 5 .digest (digestOf 0)) ∧
      (clerk []).running = true ∧ 5 ≠ (clerk []).me ∧ (clerk []).rep.station 5 = some (craneItem 5 2 .low)) ∧
    wideAt (digestOf 0) 0 = (clerk []).rep.signature ∧
    ((digestOf 0).getD 4 0).getLsbD 1 = false ∧ ((digestOf 2).getD 4 0).getLsbD 1 = true ∧
    (wideAt (digestOf 0) 0 ≠ (signedFloor []).signature ∧
      { clerk [] with rep := signedFloor [], cons.mismatch := 1 }.cons.mismatch ≠ 0) ∧
    ((floor [entryOf (storeJob idA 0) .done none]).entry idA).map (fun e => e.state.live) = some false := by decide +kernel

/-! ### The Floor Link -/

/-- A donor with a queued snapshot frame, serving station 5. -/
def donor (fill : Fill) (sent : List ItemKey) : State :=
  { timed [{ kind := .snapItem, payload := [], sequence := none, fill := fill }] with
    cons.serving := some 5, cons.sent := sent }

theorem witness_FrameStarts :
    ((timed [dockFrame]).link.txq = [dockFrame] ∧ (timed [dockFrame]).link.line = .free ∧
      (timed [dockFrame]).mem.st ≠ .offline ∧ (timed [dockFrame]).mem.st ≠ .faulted ∧
      (timed [dockFrame]).link.rxq.length < 16 ∧ ((9 + 63 - 0) % 32 : Nat) = 8 ∧ (timed [dockFrame]).me = 9 ∧
      dockFrame.fill.needsEmpty = false) ∧
    -- Not behind an own LEAVE that waits to be applied; behind another station's.
    (let waits (n : Station) := heard (timed [dockFrame]) n .leave [];
      frameOf 9 .leave [] ∈ (waits 9).link.rxq ∧ (waits 9).me = 9 ∧ (waits 5).leaveWaits = false) ∧
    ((timed [digestFrame]).link.txq = [digestFrame] ∧ digestFrame.fill = .digest ∧ (timed [digestFrame]).link.rxq = []) ∧
    ((donor (.snapNext 5) []).link.rxq = [] ∧ (donor (.snapNext 5) []).rep.items =
        [] ++ .station (craneItem 5 2 .low) :: (donor (.snapNext 5) []).rep.items.tail ∧
      (Item.station (craneItem 5 2 .low)).key ∉ (donor (.snapNext 5) []).cons.sent) ∧
    (∀ x ∈ (floor []).items, x.key ∈ (donor (.snapNext 5) ((floor []).items.map Item.key)).cons.sent) ∧
    (donor (.snapHead 5) []).link.txq.map TxFrame.fill = [.snapHead 5] ∧
    (donor (.snapEnded 5) []).link.txq.map TxFrame.fill = [.snapEnded 5] ∧
    -- A SNAP_HEAD with a frame waiting: it does not start (R175).
    (heard (donor (.snapHead 5) []) 5 .digest []).link.rxq ≠ [] := by
  decide +kernel

/-- A station with its own frame on the line. -/
def sending (f : TxFrame) (collisions : Nat) : State :=
  { timed [{ f with sequence := some 0 }] with link.line := .own, link.collisions := collisions }

theorem witness_CollisionCounted : ((sending dockFrame 1).link.line = .own ∧ (sending dockFrame 1).mem.st ≠ .faulted ∧
      (sending dockFrame 1).mem.st ≠ .offline ∧ (sending dockFrame 1).link.collisions < 2) ∧
    2 ≤ (sending dockFrame 2).link.collisions ∧
    ({ faulted with link.line := .own }.link.line = .own ∧ faulted.mem.st = .faulted) ∧
    { State.reset with link.line := .departed 5 }.link.line = .departed 5 := by decide +kernel

theorem witness_FrameCompletes : ((sending dockFrame 0).awake ∧ (sending dockFrame 0).link.line = .own ∧
      (sending dockFrame 0).link.txq = [{ dockFrame with sequence := some 0 }]) ∧
    ({ sending { dockFrame with fill := .ask 1 } 0 with mem.st := .syncing, cons.phase := .asking, cons.tryNo := 1 }.cons.tryNo = 1) ∧
    (sending { dockFrame with kind := .snapItem, fill := .snapNext 5 } 0).link.txq =
      [{ kind := .snapItem, payload := [4, 1], sequence := some 0, fill := .snapNext 5 }] := by decide +kernel

/-- A LEAVE of station 5 as its bytes end on the line: sender, kind, sequence, length and check. -/
def leaveBytes (sender : Byte) : List Byte :=
  let head : List Byte := [sender, 2, 7, 0]
  let check := crc16 head
  head ++ be16 check.toNat

theorem witness_FrameReceived :
    (damaged (leaveBytes 5) = false ∧ readFrame (leaveBytes 5) = some { sender := 5, kind := .leave, sequence := 7, payload := [] }) ∧
    damaged [5, 2, 7, 0, 0, 0] = true ∧ (damaged (leaveBytes 32) = false ∧ readFrame (leaveBytes 32) = none) ∧
    (timed []).link.line = .free ∧ (timed []).me ≠ 5 ∧ (readFrame (leaveBytes 9)).map Frame.sender = some 9 ∧
    (damaged (leaveBytes 0) = false ∧ readFrame (leaveBytes 0) = none ∧ byteAt (leaveBytes 0) 0 = 0) := by
  decide +kernel

/-- An allotment record of job A whose window runs. -/
def windowA (own : OwnBid) : AllotRecord :=
  { job := idA, attempt := 1, window := .running 80, ownBid := own, timer := .none, mark := .none }

/-- A custodian of job A with a mark. -/
def custodial (mark : CustodialMark) : State :=
  { clerk [entryOf (storeJob idA 0) .opened none] with allot := [{ windowA .none with window := .closed, mark := mark }] }

/-- A station that holds one mark of its Job Board's kinds. -/
def marked : State := { clerk [] with board.marks := [.cancel idA] }

/-- A run list with one milestone mark. -/
def milestoned : State :=
  { ready with seqr.runList := ready.seqr.runList.map fun r => { r with marks := [{ milestone := 1, detail := 0, stamp := 3 }] } }

theorem witness_MarkBecomesFrame :
    ((clerk []).nextMark = none ∧ marked.nextMark.isSome = true ∧ 16 ≤ (timed (List.replicate 16 dockFrame)).link.txq.length) ∧
    ({ clerk [] with mem.joinMark := true }.mem.joinMark = true ∧ (clerk []).mem.st ≠ .offline) ∧
    ({ clerk [] with mem.leaveFrame := .marked }.mem.leaveFrame = .marked ∧ (clerk []).onLink = true) ∧
    (5 ∈ { clerk [] with mem.lostMarks := [5, 6] }.mem.lostMarks ∧ ∀ k ∈ [5, 6], 5 ≤ k) ∧
    (milestoned.memberMark = none ∧ milestoned.onLink = true ∧ milestoned.seqr.runList.map RunJob.marks = [[{ milestone := 1, detail := 0, stamp := 3 }]]) ∧
    (marked.memberMark = none ∧ marked.milestoneMark = none ∧ marked.boundaryMark = none ∧ marked.dockMarks = [] ∧
      marked.board.marks = [.cancel idA] ∧ marked.running = true) ∧
    ({ partner6 0 with bnd.askMark := some 3, bnd.ownAsk := .sending 6 5, bnd.answer := .grant 10 5 4 }.bnd.askMark = some 3 ∧
      (partner6 0).running = true ∧ (partner6 0).memberMark = none ∧ (partner6 0).milestoneMark = none ∧
      (AnswerMark.refuse 10 2 5 2 ≠ .none) ∧ { clerk [] with bnd.resolveMarks := [(2, 9)] }.bnd.answer = .none) ∧
    ((clerk []).boundaryMark = none ∧ { clerk [] with dockMarks := [(4, 1)] }.boundaryMark = none ∧
      (clerk []).memberMark = none ∧ (clerk []).milestoneMark = none ∧ (clerk []).board.marks = []) ∧
    ((custodial (.reOffer 2 3 false)).keyed ∧
      (custodial (.reOffer 2 3 false)).allotment idA = some { windowA .none with window := .closed, mark := .reOffer 2 3 false } ∧
      (custodial (.reOffer 2 3 false)).rep.entry idA = some (entryOf (storeJob idA 0) .opened none) ∧
      (custodial (.exhaust 3 false)).boundaryMark = none) ∧
    (let o (id : JobId) (queued : Bool) : OfferItem := { job := storeJob id 0, queued := queued };
      let s : State := { clerk [] with board.offers := [o idA true, o idB false, o idC false] };
      s.custodyMark = none ∧ s.board.offers = [o idA true] ++ o idB false :: [o idC false] ∧
      ∀ x ∈ [o idA true] ++ [o idC false], x.job.id ≠ (o idB false).job.id) ∧
    ({ clerk [] with cons.serving := some 5, cons.mark := .next }.custodyMark = none ∧
      { clerk [] with cons.serving := some 5, cons.mark := .head }.cons.serving = some 5) := by decide +kernel

/-! ### The Job Board -/

/-- A SUBMIT of a STORE in aisle 2 from the low dock to the rack place 20, level 3. -/
def submitRecord : List Byte := [14, 5, 1, 2, 1, 0, 0, 2, 20, 3, 1, 0, 0, 0]

/-- Four Offer List records. -/
def fullOffers : State :=
  { clerk [] with board.offers := List.replicate 4 { job := storeJob idA 0, queued := false } }

theorem witness_SubmitTaken :
    (((asked (clerk []) submitRecord).requested 5 submitRecord ∧ (clerk []).cfg.isDispatch = true ∧
        (clerk []).mem.st = .active ∧ (clerk []).board.offers.length < 4) ∧
      (worker []).cfg.isDispatch = false ∧ (asked faulted submitRecord).requested 5 submitRecord ∧
      4 ≤ (asked fullOffers submitRecord).board.offers.length) ∧
    -- R12: the first candidate free, and the second after a board entry of the first.
    ((clerk []).me * 2048 + ((clerk []).board.seqCounter + 0) % 2048 = 9 * 2048 ∧ (clerk []).rep.entry (9 * 2048) = none ∧
      ((floor [entryOf (storeJob (9 * 2048) 0) .done none]).entry (9 * 2048)).isSome = true ∧
      (floor [entryOf (storeJob (9 * 2048) 0) .done none]).entry (9 * 2048 + 1) = none) ∧
    -- R11: no field wrong, and each of them.
    (submitRecord.length = 14 ∧ byteAt submitRecord 2 = 1 ∧ byteAt submitRecord 3 = 2 ∧
      (submitRecord.getD 4 0).getLsbD 0 = true ∧ byteAt submitRecord 5 = 0 ∧ byteAt submitRecord 6 = 0 ∧
      (submitRecord.getD 4 0).getLsbD 1 = false ∧ (submitRecord.getD 4 0).getLsbD 2 = false ∧
      (submitRecord.getD 7 0).getLsbD 0 = false ∧ byteAt submitRecord 8 = 20 ∧ byteAt submitRecord 9 = 3 ∧
      byteAt submitRecord 10 = 1 ∧ byteAt submitRecord 11 = 0 ∧ wordAt submitRecord 12 = 0) ∧
    ((clerk []).submitBad (submitRecord ++ [0]) = some 0 ∧ (clerk []).submitBad (submitRecord.set 2 4) = some 1 ∧
      (clerk []).submitBad (submitRecord.set 3 8) = some 2 ∧ (clerk []).submitBad (submitRecord.set 5 1) = some 3 ∧
      (clerk []).submitBad (submitRecord.set 9 32) = some 4 ∧ (clerk []).submitBad (submitRecord.set 10 0) = some 5 ∧
      (clerk []).submitBad (submitRecord.set 11 2) = some 6 ∧ (clerk []).submitBad (submitRecord.set 13 1) = some 7 ∧
      (clerk []).submitBad submitRecord = none) := by
  decide +kernel

/-- A CANCEL record of job A. -/
def cancelA : List Byte := 4 :: 6 :: be16 idA
/-- A RESOLVE_JOB record of job A with an outcome. -/
def resolveA (outcome : Byte) : List Byte := 5 :: 8 :: be16 idA ++ [outcome]
/-- A dispatch station that offers job A. -/
def offering (queued : Bool) : State := { clerk [] with board.offers := [{ job := storeJob idA 0, queued := queued }] }
/-- A dispatch station whose board holds job A in a state. -/
def holding (st : JobState) (owner : Option Station) : State := clerk [entryOf (storeJob idA 0) st owner]

/-- A dispatch station with a FROZEN aisle 2, its high field absent. -/
def frozen : State := { clerk [] with rep := { floor [] with aisles := [tandem (some 5) none 8 .frozen] } }

theorem witness_MarkRequestsTaken :
    (((asked (clerk []) cancelA).requested 6 cancelA ∧ wordAt cancelA 2 = idA ∧ (clerk []).rep.entry idA = none ∧
      (clerk []).board.marks.length < 128) ∧
    ((asked (offering true) cancelA).requested 6 cancelA ∧ (offering true).offered idA true = true) ∧
    (offering false).offered idA false = true ∧ ((holding .opened none).rep.entry idA).isSome = true ∧
    .cancel idA ∉ (holding .opened none).board.marks ∧ .cancel idA ∈ marked.board.marks ∧
    ((asked (holding .stranded (some 5)) (resolveA 1)).requested 8 (resolveA 1) ∧ wordAt (resolveA 1) 2 = idA ∧
      (holding .stranded (some 5)).rep.entry idA = some (entryOf (storeJob idA 0) .stranded (some 5))) ∧
    (byteAt (resolveA 3) 4 ≠ 1 ∧ byteAt (resolveA 3) 4 ≠ 2 ∧ byteAt (resolveA 2) 4 = 2) ∧
    (asked { clerk [] with board.marks := List.replicate 128 (.cancel idA) } cancelA).requested 6 cancelA) ∧
    ((asked (clerk []) [4, 7, 4, 4]).requested 7 [4, 7, 4, 4] ∧ (clerk []).rep.dock 4 = some (dock4 (some 9)) ∧
      (clerk []).me = 9 ∧ (clerk []).running = true ∧ (clerk []).dockMarks.length < 4) ∧
    ((asked { clerk [] with dockMarks := List.replicate 4 (4, 1) } [4, 7, 4, 4]).requested 7 [4, 7, 4, 4]) ∧
    (15 < byteAt [4, 7, 16, 1] 2 ∧ ¬ (1 ≤ byteAt [4, 7, 15, 0] 3) ∧ ¬ (byteAt [4, 7, 15, 5] 3 ≤ 4) ∧
      (clerk []).rep.dock 15 = none) ∧
    ((asked frozen [4, 9, 2, 14]).requested 9 [4, 9, 2, 14] ∧ frozen.rep.aisle 2 = some (tandem (some 5) none 8 .frozen) ∧
      orZero (some 8) < byteAt [4, 9, 2, 14] 3 ∧ (tandem (some 5) none 8 .frozen).high = none) ∧
    ((clerk []).rep.aisle 7 = none ∧ byteAt [4, 9, 2, 8] 3 = 8 ∧ faulted.running = false) := by
  decide +kernel

/-- An OFFER payload of a job with an attempt. -/
def offerOf (j : JobRecord) (attempt : Nat) : List Byte := j.offer attempt

/-- Job A FAILED, and job C, a RETRIEVE claimed by chain behind job B, which the board no longer holds. -/
def failing : State :=
  worker [{ entryOf (fetchJob idA 0) .failed none with reason := 7 },
    { entryOf (fetchJob idC idB) .awarded (some 5) with attempt := 0 }]

theorem witness_OfferApplied :
    ((heard (worker []) 9 .offer (offerOf (storeJob idA 0) 1)).applies (frameOf 9 .offer (offerOf (storeJob idA 0) 1)) ∧
      (worker []).running = true ∧ offeredJob (offerOf (storeJob idA 0) 1) = storeJob idA 0 ∧
      byteAt (offerOf (storeJob idA 0) 1) 2 = 1 ∧ origin idA = 9 ∧ (worker []).rep.entry idA = none ∧
      (worker []).rep.jobs.length < 64) ∧
    ((holding .opened none).rep.entry idA = some (entryOf (storeJob idA 0) .opened none) ∧
      (entryOf (storeJob idA 0) .opened none).attempt < byteAt (offerOf (storeJob idA 0) 2) 2) ∧
    (storeJob idB 0).conflicts (storeJob idA 0) = true ∧
    ((worker []).rep.aisle 2 = some (tandem (some 5) (some 6) 8 .set) ∧
      { storeJob idA 0 with dstPos := 120 }.reachableTandem = false) ∧
    (fetchJob idB idA).conflicts (storeJob idA 0) = false ∧
    ((heard (offering true) 9 .offer (offerOf (storeJob idA 0) 1)).applies
      (frameOf 9 .offer (offerOf (storeJob idA 0) 1)) ∧ (offering true).me = 9) ∧
    -- R13: an own first OFFER takes the queued record out; an own OFFER of a further attempt leaves it.
    ([1, 2].map fun k => (after .applyOffer (heard (offering true) 9 .offer (offerOf (storeJob idA 0) k))).board.offers.length) =
      [0, 1] ∧
    -- R66: an id offered again, its predecessor FAILED, with a claim by chain that names it.
    (failing.keyed ∧ failing.rep.entry idB = none ∧ (failing.rep.entry idA).map JobEntry.state = some .failed ∧
      (failing.rep.jobs.any fun x => x.job.pred == idB && x.state == .awarded && x.attempt == 0) = true ∧
      (heard failing 9 .offer (offerOf (storeJob idB idA) 1)).applies (frameOf 9 .offer (offerOf (storeJob idB idA) 1))) := by
  decide +kernel

/-- A PROGRESS payload of job A. -/
def progressA (milestone detail : Byte) : List Byte := be16 idA ++ [milestone, detail]

/-- A station whose board holds job A, a RETRIEVE, in a state of owner 5, with job B after it. -/
def owned (st : JobState) : State :=
  clerk [entryOf (fetchJob idA 0) st (some 5), { entryOf (storeJob idB idA) .held none with attempt := 0 }]

theorem witness_OwnersMilestones :
    ((heard (owned .awarded) 5 .progress (progressA 1 0)).applies (frameOf 5 .progress (progressA 1 0)) ∧
      (owned .awarded).rep.entry (wordAt (progressA 1 0) 0) = some (entryOf (fetchJob idA 0) .awarded (some 5)) ∧
      byteAt (progressA 1 0) 2 = 1) ∧
    ((owned .active).rep.entry idA = some (entryOf (fetchJob idA 0) .active (some 5)) ∧ byteAt (progressA 2 3) 2 = 2 ∧
      byteAt (progressA 5 0) 2 = 5 ∧ byteAt (progressA 6 0) 2 = 6) ∧
    (owned .stranded).rep.entry idA = some (entryOf (fetchJob idA 0) .stranded (some 5)) ∧
    -- R67: a station that does not own the entry, and an entry that the board lacks.
    ((heard (owned .active) 6 .progress (progressA 3 0)).applies (frameOf 6 .progress (progressA 3 0)) ∧
      (entryOf (fetchJob idA 0) .active (some 5)).owner ≠ some 6 ∧
      (heard (clerk []) 5 .progress (progressA 4 9)).applies (frameOf 5 .progress (progressA 4 9)) ∧
      (clerk []).rep.entry (wordAt (progressA 4 9) 0) = none ∧ byteAt (progressA 4 9) 3 ≠ 4) := by decide +kernel

/-- A RESOLVE payload of form JOB for job A. -/
def resolveFrame (outcome : Byte) : List Byte := 1 :: be16 idA ++ [outcome]

theorem witness_DoneApplied :
    ((owned .active).keyed ∧ (heard (owned .active) 5 .progress (progressA 3 0)).applies (frameOf 5 .progress (progressA 3 0)) ∧
      (owned .active).rep.entry idA = some (entryOf (fetchJob idA 0) .active (some 5)) ∧ byteAt (progressA 3 0) 2 = 3 ∧
      wordAt (progressA 3 0) 0 = idA) ∧
    ((heard (owned .stranded) 9 .resolve (resolveFrame 1)).applies (frameOf 9 .resolve (resolveFrame 1)) ∧
      (resolveFrame 1).length = 4 ∧ byteAt (resolveFrame 1) 0 = 1 ∧ wordAt (resolveFrame 1) 1 = idA ∧
      byteAt (resolveFrame 1) 3 = 1 ∧ (owned .stranded).rep.presentAs 9 .dispatch = true) ∧
    -- DONE of an AWARDED entry; a RESOLVE of a crane station, of an ACTIVE entry, with outcome 3, and of no entry.
    (heard (owned .awarded) 5 .progress (progressA 3 0)).applies (frameOf 5 .progress (progressA 3 0)) ∧
    ((heard (owned .stranded) 5 .resolve (resolveFrame 1)).applies (frameOf 5 .resolve (resolveFrame 1)) ∧
      (owned .stranded).rep.presentAs 5 .dispatch = false ∧ (owned .stranded).me = 9 ∧
      (heard (owned .active) 9 .resolve (resolveFrame 1)).applies (frameOf 9 .resolve (resolveFrame 1)) ∧
      byteAt (resolveFrame 3) 3 = 3 ∧ (clerk []).rep.entry (wordAt (resolveFrame 1) 1) = none ∧
      (heard (inState (clerk []) .syncing) 9 .resolve (resolveFrame 1)).applies (frameOf 9 .resolve (resolveFrame 1))) := by
  decide +kernel

/-- Crane station 5 with job A in a phase at the head and a step in flight. -/
def working (act : StepAct) (phase : Phase) (loaded : Bool) (r : List Byte) : State :=
  let e := { entryOf (storeJob idA 0) .active (some 5) with loaded := loaded }
  asked { steps (worker [e]) (stepOf act (some idA) .outstanding) .stepping .none with
    seqr.runList := [runJob e phase loaded] } r

/-- Crane station 5 whose run list holds job A, its STARTED queued and not started. -/
def beginning : State :=
  { ready with link.txq := [{ kind := .progress, payload := progressA 1 0, sequence := none, fill := .fixed }] }

theorem witness_FailureApplied :
    ((heard (owned .awarded) 5 .progress (progressA 4 6)).applies (frameOf 5 .progress (progressA 4 6)) ∧
      (owned .awarded).keyed ∧ byteAt (progressA 4 6) 2 = 4 ∧ byteAt (progressA 4 6) 3 = 6 ∧ byteAt (progressA 4 9) 3 = 9 ∧
      (owned .awarded).rep.entry idA = some (entryOf (fetchJob idA 0) .awarded (some 5))) ∧
    ((heard (holding .opened none) 9 .progress (progressA 4 4)).applies (frameOf 9 .progress (progressA 4 4)) ∧
      byteAt (progressA 4 4) 3 = 4 ∧ (holding .opened none).rep.custodian idA = some 9 ∧
      (holding .opened none).rep.entry idA = some (entryOf (storeJob idA 0) .opened none)) ∧
    ((heard (holding .held none) 9 .cancel (be16 idA)).applies (frameOf 9 .cancel (be16 idA)) ∧ wordAt (be16 idA) 0 = idA ∧
      (holding .held none).rep.presentAs 9 .dispatch = true ∧
      (holding .held none).rep.entry idA = some (entryOf (storeJob idA 0) .held none)) ∧
    ((heard (owned .stranded) 9 .resolve (resolveFrame 2)).applies (frameOf 9 .resolve (resolveFrame 2)) ∧
      byteAt (resolveFrame 2) 3 = 2) ∧
    -- FAILED with detail 5 or 10, and of a loaded job; EXHAUSTED of a station that is not the custodian.
    ((heard (owned .awarded) 5 .progress (progressA 4 5)).applies (frameOf 5 .progress (progressA 4 5)) ∧
      byteAt (progressA 4 5) 3 < 6 ∧ 9 < byteAt (progressA 4 10) 3 ∧
      (working (.travel 20 3) .toDest true []).rep.entry idA =
        some { entryOf (storeJob idA 0) .active (some 5) with loaded := true } ∧
      (heard (holding .opened none) 5 .progress (progressA 4 4)).applies (frameOf 5 .progress (progressA 4 4)) ∧
      (holding .opened none).rep.custodian idA ≠ some 5) ∧
    -- A CANCEL of a crane station, one that comes late, and one of an entry that the board lacks.
    ((heard (holding .held none) 5 .cancel (be16 idA)).applies (frameOf 5 .cancel (be16 idA)) ∧
      (holding .held none).rep.presentAs 5 .dispatch = false ∧
      (heard (owned .active) 9 .cancel (be16 idA)).applies (frameOf 9 .cancel (be16 idA)) ∧ (owned .active).me = 9 ∧
      (heard (clerk []) 9 .cancel (be16 idA)).applies (frameOf 9 .cancel (be16 idA)) ∧ (clerk []).rep.entry idA = none ∧
      (heard (inState (clerk []) .syncing) 9 .cancel (be16 idA)).applies (frameOf 9 .cancel (be16 idA))) ∧
    -- R166: a CANCEL of a job of the own run list.
    ((heard beginning 9 .cancel (be16 idA)).applies (frameOf 9 .cancel (be16 idA)) ∧ beginning.keyed ∧
      beginning.rep.presentAs 9 .dispatch = true ∧ beginning.me = 5 ∧
      beginning.rep.entry idA = some (entryOf (storeJob idA 0) .awarded (some 5)) ∧
      (beginning.seqr.job idA).isSome = true) := by
  refine ⟨?_, ?_, ?_, ?_, ?_, ?_, ?_⟩ <;> decide +kernel

/-! ### Bidding and award -/

/-- A BID payload for job A at attempt 1. -/
def bidA (cost : Nat) : List Byte := bidPayload idA 1 cost
/-- Job A OPEN with bids. -/
def bids (l : List Bid) : State := worker [{ entryOf (storeJob idA 0) .opened none with bids := l }]
/-- Four bids, the dearest 40. -/
def fourBids : List Bid := [⟨1, 10⟩, ⟨2, 20⟩, ⟨3, 40⟩, ⟨4, 40⟩]

theorem witness_BidApplied :
    ((heard (bids []) 6 .bid (bidA 0)).applies (frameOf 6 .bid (bidA 0)) ∧ wordAt (bidA 0) 0 = idA ∧ byteAt (bidA 0) 2 = 1 ∧
      (bids []).rep.presentAs 6 .crane = true ∧ (bids []).rep.entry idA = some (entryOf (storeJob idA 0) .opened none)) ∧
    ((bids fourBids).rep.entry idA = some { entryOf (storeJob idA 0) .opened none with bids := fourBids } ∧
      (∀ x ∈ fourBids, x.bidder ≠ 6) ∧ (∀ x ∈ fourBids, x.cost ≤ wordAt (bidA 65535) 3) ∧
      (∃ x ∈ fourBids, wordAt (bidA 39) 3 < x.cost) ∧ fourBids.Pairwise (fun x y => x.cost ≤ y.cost)) ∧
    (bids fourBids).rep.presentAs 9 .crane = false ∧ (worker []).rep.entry idA = none := by decide +kernel

/-- An AWARD payload for a job. -/
def awardOf (id : JobId) (attempt : Nat) (mode : AwardMode) : List Byte := awardPayload id attempt 30 mode
/-- Job A AWARDED to station 5, and job B, a RETRIEVE, HELD behind it. -/
def chained : State :=
  worker [entryOf (storeJob idA 0) .awarded (some 5), { entryOf (fetchJob idB idA) .held none with attempt := 0 }]

/-- A SYNCING station whose partial tables hold those jobs and no dock record. -/
def part : State := { chained with mem.st := .syncing, rep.docks := [] }

theorem witness_AwardApplied :
    ((heard (bids []) 5 .award (awardOf idA 1 .bid)).applies (frameOf 5 .award (awardOf idA 1 .bid)) ∧
      (bids []).rep.entry (wordAt (awardOf idA 1 .bid) 0) = some (entryOf (storeJob idA 0) .opened none) ∧
      byteAt (awardOf idA 1 .bid) 5 = 1 ∧ byteAt (awardOf idA 1 .bid) 2 = 1 ∧ (bids []).me = 5 ∧
      (bids []).rep.presentAs 5 .crane = true) ∧
    ((heard chained 5 .award (awardOf idB 0 .chain)).applies (frameOf 5 .award (awardOf idB 0 .chain)) ∧
      chained.rep.entry (wordAt (awardOf idB 0 .chain) 0) =
        some { entryOf (fetchJob idB idA) .held none with attempt := 0 } ∧ byteAt (awardOf idB 0 .chain) 5 = 2 ∧
      chained.rep.dock (fetchJob idB idA).dockNumber = some (dock4 (some 9)) ∧ 0 < (dock4 (some 9)).free ∧
      chained.rep.entry idA = some (entryOf (storeJob idA 0) .awarded (some 5))) ∧
    (bids []).rep.presentAs 9 .crane = false ∧
    ((heard (worker []) 5 .award (awardOf idA 1 .bid)).applies (frameOf 5 .award (awardOf idA 1 .bid)) ∧
      (worker []).rep.entry (wordAt (awardOf idA 1 .bid) 0) = none) ∧
    ((heard part 5 .award (awardOf idB 0 .chain)).applies (frameOf 5 .award (awardOf idB 0 .chain)) ∧
      part.mem.st = .syncing ∧ part.rep.dock 4 = none ∧ (fetchJob idB idA).dockNumber = 4) := by decide +kernel

/-- A station with that record and a bid of its own at the head of the list. -/
def bidding (own : OwnBid) (l : List Bid) : State := { bids l with allot := [windowA own] }

/-- A station's one allotment record, of job A, beside its one OPEN entry. -/
theorem allotted_one {s : State} {e : JobEntry} {a : AllotRecord} (h : s.rep.jobs = [e]) (ha : s.allot = [a])
    (id : e.id = a.job) (opened : e.state = .opened) (att : e.attempt = a.attempt) (st : s.mem.st = .active) : s.allotted := by
  refine ⟨fun _ k => ?_, fun no => absurd st no⟩
  by_cases hk : a.job = k <;> simp [State.allotment, Replica.entry, findKey, h, ha, id, hk, opened, att]

/-- A station without an allotment record, no entry of its board OPEN. -/
theorem allotted_none {s : State} (h : ∀ e ∈ s.rep.jobs, e.state ≠ .opened) (ha : s.allot = []) : s.allotted := by
  refine ⟨fun _ k => ?_, fun _ => ha⟩
  have key (x : JobEntry) (hx : s.rep.entry k = some x) : x ∈ s.rep.jobs := List.mem_of_find?_eq_some hx
  cases hx : s.rep.entry k with
  | none => simp [State.allotment, findKey, ha]
  | some x => simp [State.allotment, findKey, ha, h x (key x hx)]

/-- A station whose record of job A is closed, with a timer. -/
def windowOver (s : State) (timer : CustodialTimer) : State :=
  { s with allot := [{ windowA .none with window := .closed, timer := timer }] }

/-- The floor without station 9. -/
def without9 (jobs : List JobEntry) : State :=
  { worker jobs with rep := { floor jobs with roster := [craneItem 5 2 .low, craneItem 6 2 .high] }, mem.hash := some 3 }

/-- A JOIN of dispatch station 9 with dock 4. -/
def joinOf9 : List Byte := [2, 0, 0, 0, 0, 0, 0, 3, 1, 4, 3, 0]

theorem quiet_active {s : State} (active : s.mem.st = .active) (phase : s.cons.phase = .none)
    (timer : s.cons.snapTimer = .stopped) : s.quiet := by
  refine ⟨fun h => ?_, fun h => ?_, fun _ => ⟨phase, timer⟩, fun h => ?_⟩ <;> simp [active] at h

theorem witness_AllotmentFollowsBoard :
    let offered (attempt : Nat) (s : State) := heard s 9 .offer (offerOf (storeJob idA 0) attempt)
    let opened := entryOf (storeJob idA 0) .opened none
    let ready (s : State) := s.allotted ∧ s.quiet
    let released := heard (clerk [entryOf (storeJob idA 0) .awarded (some 5)]) 5 .progress (progressA 6 0)
    -- An entry made OPEN by its OFFER, and one raised to attempt 2: a window, with the station's own BID.
    (((worker []).keyed ∧ (worker []).mem.st = .active ∧ (after .applyOffer (offered 1 (worker []))).mem.st = .active ∧
        ((after .applyOffer (offered 1 (worker []))).allotment idA).map AllotRecord.ownBid = some .queued) ∧
      ready (offered 1 (worker []))) ∧
    (((windowOver (worker [opened]) .none).keyed ∧
        ((after .applyOffer (offered 2 (windowOver (worker [opened]) .none))).allotment idA).map AllotRecord.ownBid = some .queued) ∧
      ready (offered 2 (windowOver (worker [opened]) .none))) ∧
    -- An entry RELEASED at its attempt: a closed record, its mark at the custodian.
    ((released.keyed ∧ ((after .applyProgressReleased released).allotment idA).map AllotRecord.window = some .closed ∧
        released.rep.custodian idA = some released.me) ∧ ready released) ∧
    -- The custodian changes: to this station at the LOST of station 9, from it at 9's JOIN.
    (((windowOver (worker [opened]) .none).rep.custodian idA = some 9 ∧
        (after .applyLost (heard (windowOver (worker [opened]) .none) 6 .lost [9])).rep.custodian idA = some 5) ∧
      ready (heard (windowOver (worker [opened]) .none) 6 .lost [9])) ∧
    (((without9 [opened]).rep.custodian idA = some 5 ∧
        (after .applyJoin (heard (windowOver (without9 [opened]) (.reofferWait 5000)) 9 .join joinOf9)).rep.custodian idA = some 9) ∧
      ready (heard (windowOver (without9 [opened]) (.reofferWait 5000)) 9 .join joinOf9)) := by
  refine ⟨⟨by decide +kernel, allotted_none nofun rfl, quiet_active rfl rfl rfl⟩,
    ⟨by decide +kernel, allotted_one rfl rfl rfl rfl rfl rfl, quiet_active rfl rfl rfl⟩,
    ⟨by decide +kernel, allotted_none ?_ rfl, quiet_active rfl rfl rfl⟩,
    ⟨by decide +kernel, allotted_one rfl rfl rfl rfl rfl rfl, quiet_active rfl rfl rfl⟩,
    ⟨by decide +kernel, allotted_one rfl rfl rfl rfl rfl rfl, quiet_active rfl rfl rfl⟩⟩
  intro e he
  cases List.mem_singleton.1 he
  decide

/-- A station with a job to claim by chain, of class 1, its own frame on the line. -/
def claiming : State :=
  let job : JobRecord := { fetchJob idB idA with classPrio := 1 }
  { worker [entryOf (storeJob idA 0) .awarded (some 5), { entryOf job .held none with attempt := 0 }] with
    link.line := .own, link.txq := [{ dockFrame with sequence := some 0 }] }

theorem witness_ChainClaimsMade :
    (claiming.keyed ∧ claiming.awake ∧ claiming.link.line = .own ∧ claiming.link.txq ≠ [] ∧ claiming.cfg.isDispatch = false) ∧
    (let t := after .frameComplete claiming;
      t.mem.st = .active ∧ t.seqr.crane.state = .idle ∧ t.seqr.runList = [] ∧
      t.seqr.awards = [{ job := idB, mode := .chain, attempt := 0 }] ∧ t.link.txq.length = 1) ∧
    -- A pending award ends, and another job is claimed in the same application.
    (let s := heard { claiming with link.line := .free, link.txq := [], seqr.awards := [{ job := idC, mode := .bid, attempt := 1 }] }
        5 .award (awardOf idC 1 .bid);
      (after .applyAwardBid s).seqr.awards = [{ job := idB, mode := .chain, attempt := 0 }]) := by decide +kernel

theorem witness_AllotmentTimersExpire :
    ((bidding .sent [⟨5, 30⟩]).mem.st ≠ .draining ∧ (bidding .sent [⟨5, 30⟩]).allotment idA = some (windowA .sent) ∧
      (bidding .sent [⟨5, 30⟩]).me = 5 ∧ (bidding .sent [⟨5, 30⟩]).cfg.isDispatch = false ∧
      (bidding .sent [⟨5, 30⟩]).seqr.crane.state = .idle ∧ (bidding .sent [⟨5, 30⟩]).link.txq.length < 12 ∧
      (bidding .sent [⟨5, 30⟩]).rep.entry idA = some { entryOf (storeJob idA 0) .opened none with bids := [⟨5, 30⟩] }) ∧
    (bidding .queued []).allotment idA = some (windowA .queued) ∧
    { clerk [entryOf (storeJob idA 0) .opened none] with allot := [windowA .none] }.rep.custodian idA = some 9 ∧
    { clerk [] with allot := [{ windowA .none with timer := .reofferWait 5000, attempt := 255 }] }.allotment idA =
      some { windowA .none with timer := .reofferWait 5000, attempt := 255 } := by decide +kernel

/-! ### Costs and times -/

theorem witness_TimesAndCosts : ((3 : Nat) < 4 ∧ (127 : Nat) ≤ 127 ∧ (31 : Nat) ≤ 31 ∧ (worker []).seqr.crane.pos = 0 ∧
      ready.seqr.crane.pos ≠ 0) ∧
    (65535 < 65535 + min 65535 (1 * 1) ∧ 65534 + min 65535 (1 * 1) ≤ 65535 ∧ min 65535 (65535 * 2) = 65535) ∧
    [(2, 3), (65535, 2)].Perm [(65535, 2), (2, 3)] := by decide

/-! ### Docks and aisles -/

theorem witness_DockApplied :
    ((heard (clerk []) 9 .dock [4, 1]).applies (frameOf 9 .dock [4, 1]) ∧ (clerk []).rep.dock 4 = some (dock4 (some 9)) ∧
      byteAt [4, 1] 1 ≤ (dock4 (some 9)).occupied) ∧
    ((dock4 (some 9)).occupied < byteAt [4, 4] 1 ∧ byteAt [4, 0] 1 < 1 ∧ 4 < byteAt [4, 5] 1) ∧
    ((heard (clerk []) 5 .dock [4, 1]).applies (frameOf 5 .dock [4, 1]) ∧ (dock4 (some 9)).server ≠ some 5) ∧
    (clerk []).rep.dock 3 = none ∧ (clerk []).rep.present 7 = false := by decide +kernel

theorem witness_BoundaryMoves :
    ((heard frozen 9 .resolve [2, 2, 14]).applies (frameOf 9 .resolve [2, 2, 14]) ∧ [2, 2, (14 : Byte)].length ≠ 4 ∧
      byteAt [2, 2, 14] 0 = 2 ∧ frozen.rep.aisle (byteAt [2, 2, 14] 1) = some (tandem (some 5) none 8 .frozen) ∧
      frozen.rep.presentAs 9 .dispatch = true ∧ orZero (some 8) < byteAt [2, 2, 14] 2) ∧
    ((heard (worker []) 6 .boundary [2, 2, 9, 0]).applies (frameOf 6 .boundary [2, 2, 9, 0]) ∧
      byteAt [2, 2, 9, 0] 1 = 2 ∧ (worker []).rep.aisle 2 = some (tandem (some 5) (some 6) 8 .set) ∧
      (worker []).rep.presentAs 6 .crane = true ∧ orZero (some 8) < byteAt [2, 2, 9, 0] 2) ∧
    ((worker []).ownBoundary (frameOf 6 .boundary [2, 2, 9, 0]) = true ∧ (worker []).partner = some 6) ∧
    (byteAt [2, 2, 8, 0] 2 = 8 ∧ (worker []).ownBoundary (frameOf 5 .boundary [2, 2, 7, 0]) = true ∧ (worker []).me = 5) ∧
    (let s : State := { worker [] with mem.st := .syncing, bnd.ownAsk := .waiting 9 6 };
      (heard s 6 .boundary [2, 2, 9, 0]).applies (frameOf 6 .boundary [2, 2, 9, 0]) ∧ s.bnd.ownAsk = .waiting 9 6) ∧
    { worker [] with bnd.partnerAsk := .granting 7 6 }.bnd.partnerAsk = .granting 7 6 := by
  decide +kernel

/-- Crane station 6 inside the segments of a deferred ask. -/
def yielding : State := { partner6 80 with bnd.partnerAsk := .deferred 10 5 }

/-- That station with its crane in a state, a step in hand and a crane request at the head. -/
def deferring (pos : Nat) (state : CraneState) (step : Option Step) (r : List Byte) : State :=
  asked { partner6 pos with
    bnd.partnerAsk := .deferred 10 5, seqr.crane.state := state, seqr.crane.step := step } r

theorem witness_AskApplied :
    ((heard (partner6 120) 5 .boundary [2, 1, 10, 0]).applies (frameOf 5 .boundary [2, 1, 10, 0]) ∧
      (partner6 120).ownBoundary (frameOf 5 .boundary [2, 1, 10, 0]) = true ∧ (partner6 120).running = true ∧
      (partner6 120).aisleSet = true ∧ (partner6 120).partner = some 5 ∧ (partner6 120).clearNow 10 = true ∧
      orZero (partner6 120).boundary = 8 ∧ (partner6 120).seqr.crane.state.unable = false) ∧
    ((partner6 80).clearNow 10 = false ∧ (partner6 80).cfg.craneEnd.ownSide 8 (80 / 8) = true) ∧
    (partner6 64).cfg.craneEnd.ownSide 8 (64 / 8) = false ∧ byteAt [2, 1, 8, 0] 2 ≤ 8 ∧
    (let s : State := { partner6 120 with bnd.ownAsk := .sending 6 5 };
      (heard s 6 .boundary [2, 1, 6, 0]).applies (frameOf 6 .boundary [2, 1, 6, 0]) ∧ s.bnd.askMark = none ∧ s.me = 6 ∧
      (partner6 120).ownBoundary (frameOf 6 .boundary [2, 1, 6, 0]) = true) ∧
    ({ partner6 120 with bnd.ownAsk := .sending 6 5, bnd.askMark := some 3 }.bnd.askMark ≠ none ∧
      { partner6 120 with bnd.ownAsk := .waiting 6 5 }.bnd.ownAsk = .waiting 6 5) ∧
    (let s : State := { partner6 120 with mem.st := .syncing, bnd.partnerAsk := .held 9 5 };
      (heard s 5 .boundary [2, 1, 10, 0]).applies (frameOf 5 .boundary [2, 1, 10, 0]) ∧ s.bnd.partnerAsk = .held 9 5 ∧
      (partner6 120).bnd.partnerAsk = .none) ∧
    -- R140: a deferral judged again: the crane unable, clear, and neither.
    (let s := deferring 80 .idle none [3, 15, 1]; let t := after .modeManual s;
      exec .modeManual s = .next t ∧ t.seqr.crane ≠ s.seqr.crane ∧ s.bnd.partnerAsk = .deferred 10 5 ∧
      t.seqr.crane.state = .manual) ∧
    (let s := deferring 80 .stepping (some (stepOf (.travel 88 0) none .outstanding)) [6, 11, 7, 88, 0, 0];
      let t := after .stepDone s;
      exec .stepDone s = .next t ∧ t.seqr.crane ≠ s.seqr.crane ∧ t.seqr.crane.state = .idle ∧
      t.cfg.craneEnd.ownSide 10 (t.seqr.crane.pos / 8) = true ∧ t.seqr.crane.inFlight = none) ∧
    (let s := deferring 0 .unknown none [4, 10, 80, 0]; let t := after .homed s;
      exec .homed s = .next t ∧ t.seqr.crane ≠ s.seqr.crane ∧ t.cfg.craneEnd.ownSide 10 (t.seqr.crane.pos / 8) = false) := by
  refine ⟨by decide +kernel, by decide +kernel, by decide +kernel, by decide +kernel, by decide +kernel, by decide +kernel,
    by decide +kernel, ⟨rfl, by decide +kernel⟩, ⟨rfl, by decide +kernel⟩, rfl, by decide +kernel⟩

/-- A crane station whose ask WAITS, with a head job. -/
def waiting : State := { ready with bnd.ownAsk := .waiting 10 6, bnd.reAsk := .running 1000 }
/-- Crane station 5 at position 40, the boundary at 8, with a loaded head job to a rail position beyond it, under an aisle
record; its own re-ask timer runs or not. -/
def beyond (pos : Nat) (a : AisleRecord) (timer : Timer) : State :=
  let e := entryOf { storeJob idA 0 with dstPos := pos } .active (some 5)
  let s := worker [e]
  { s with rep.aisles := [a], seqr.runList := [runJob e .toDest true], seqr.crane.pos := 40, bnd.reAsk := timer }

theorem witness_RefusedAskWaits :
    ((heard waiting 6 .boundary [2, 3, 10, 2]).applies (frameOf 6 .boundary [2, 3, 10, 2]) ∧
      waiting.ownBoundary (frameOf 6 .boundary [2, 3, 10, 2]) = true ∧ waiting.me = 5 ∧ waiting.partner = some 6 ∧
      waiting.seqr.head.isSome = true ∧ waiting.bnd.lastWaited = none) ∧
    ({ worker [] with bnd.ownAsk := .waiting 10 6 }.seqr.head = none) ∧
    (let s := { waiting with mem.st := .syncing };
      (heard s 6 .boundary [2, 3, 10, 2]).applies (frameOf 6 .boundary [2, 3, 10, 2]) ∧ s.bnd.ownAsk = .waiting 10 6) ∧
    (let s := { waiting with mem.st := .syncing, rep := Replica.empty };
      (heard s 6 .boundary [2, 3, 10, 2]).applies (frameOf 6 .boundary [2, 3, 10, 2]) ∧ s.rep.aisle s.cfg.aisle = none) ∧
    (faulted.running = false ∧ { worker [] with seqr.crane.state := .manual }.seqr.crane.state ≠ .idle) ∧
    { worker [] with bnd.reAsk := .running 1000 }.choice = none := by decide +kernel

/-- The aisle record of the floor, SET, with a boundary. -/
def setAt (b : Nat) : AisleRecord := tandem (some 5) (some 6) b .set

theorem witness_HeldBackStepJudged :
    let act (p : Nat) : StepAct := .travel p 3
    let job (p : Nat) : RunJob := runJob (entryOf { storeJob idA 0 with dstPos := p } .active (some 5)) .toDest true
    -- The hypotheses of a step of the head job, at STEP_ISSUE and at the timer's expiry.
    ((beyond 80 (setAt 8) .stopped).awake ∧ (beyond 80 (setAt 8) .stopped).running = true ∧
      (beyond 80 (setAt 8) .stopped).cfg.isDispatch = false ∧
      (beyond 80 (setAt 8) .stopped).seqr.crane.state = .idle ∧ (beyond 80 (setAt 8) .stopped).seqr.head = some (job 80) ∧
      (beyond 80 (setAt 8) .stopped).blocked (job 80) = false ∧ (beyond 80 (setAt 8) .stopped).yieldAct = none ∧
      (beyond 80 (setAt 8) .stopped).stepSafe (act 80) = false ∧ (beyond 80 (setAt 8) .stopped).rep.aisle 2 = some (setAt 8) ∧
      (beyond 80 (setAt 8) .stopped).cfg.aisle = 2 ∧ (beyond 80 (setAt 8) .stopped).cfg.craneEnd = .low ∧
      ((beyond 80 (setAt 8) .stopped).rep.entry idA).bind ((beyond 80 (setAt 8) .stopped).nextAct (job 80)) = some (act 80) ∧
      (beyond 80 (setAt 8) (.running 1000)).bnd.reAsk = .running 1000) ∧
    -- The asked value 11 takes in the segments 5 and 10; at position 120 the value would be 16.
    ((beyond 80 (setAt 8) .stopped).partner = some 6 ∧ 5 < 11 ∧ 80 / 8 = 11 - 1 ∧ 120 / 8 + 1 = 16 ∧
      (beyond 120 (setAt 8) .stopped).stepSafe (act 120) = false ∧
      (beyond 80 (tandem (some 5) none 8 .frozen) .stopped).stepSafe (act 80) = false) ∧
    -- A HELD step given again.
    (let s := steps (beyond 80 (setAt 8) .stopped) (stepOf (act 80) (some idA) .held) .idle .none;
      s.seqr.crane.step = some (stepOf (act 80) (some idA) .held) ∧ s.yieldAct = none ∧ s.stepSafe (act 80) = false) ∧
    -- An ask or the timer active.
    ({ beyond 80 (setAt 8) .stopped with bnd.ownAsk := .waiting 11 6 }.bnd.ownAsk ≠ .none ∧
      (beyond 80 (setAt 8) (.running 1000)).bnd.reAsk = .running 1000) := by decide +kernel

/-! ### The Step Sequencer -/

/-- Crane station 5 with a crane request at the head, its crane in a state. -/
def craneAsked (r : List Byte) (state : CraneState) : State := asked { worker [] with seqr.crane.state := state } r

theorem witness_HomedAndModeTaken :
    ((craneAsked [4, 10, 127, 31] .unknown).requested 10 [4, 10, 127, 31] ∧ (worker []).cfg.isDispatch = false ∧
      byteAt [4, 10, 127, 31] 2 ≤ 127 ∧ byteAt [4, 10, 127, 31] 3 ≤ 31) ∧
    ((craneAsked [3, 15, 1] .idle).requested 15 [3, 15, 1] ∧ (craneAsked [3, 15, 4] .outOfService).requested 15 [3, 15, 4] ∧
      (craneAsked [3, 15, 2] .manual).requested 15 [3, 15, 2] ∧ (craneAsked [3, 15, 3] .idle).requested 15 [3, 15, 3]) ∧
    ((clerk []).cfg.isDispatch = true ∧ (asked (clerk []) [4, 10, 0, 0]).requested 10 [4, 10, 0, 0] ∧
      (asked (clerk []) [6, 11, 0, 0, 0, 0]).requested 11 [6, 11, 0, 0, 0, 0] ∧
      (asked (clerk []) [4, 12, 0, 1]).requested 12 [4, 12, 0, 1] ∧ (asked (clerk []) [3, 13, 0]).requested 13 [3, 13, 0] ∧
      (asked (clerk []) [3, 14, 1]).requested 14 [3, 14, 1] ∧ (asked (clerk []) [3, 15, 4]).requested 15 [3, 15, 4]) ∧
    -- R156: a field out of its range, another crane state, a value of MODE that has no row.
    ((craneAsked [4, 10, 128, 0] .unknown).requested 10 [4, 10, 128, 0] ∧ 127 < byteAt [4, 10, 128, 0] 2 ∧
      (craneAsked [4, 10, 127, 32] .unknown).requested 10 [4, 10, 127, 32] ∧ 31 < byteAt [4, 10, 127, 32] 3 ∧
      (craneAsked [4, 10, 127, 31] .idle).seqr.crane.state ≠ .unknown ∧
      (craneAsked [3, 15, 0] .idle).requested 15 [3, 15, 0] ∧ (craneAsked [3, 15, 5] .idle).requested 15 [3, 15, 5]) ∧
    -- R163: a loaded head, a job behind it, and a job that has set its final milestone.
    (let a := runJob (entryOf (storeJob idA 0) .active (some 5)) .toDest true
      let b := runJob (entryOf (storeJob idB 0) .awarded (some 5)) .waiting false
      let c := { runJob (entryOf (storeJob idC 0) .active (some 5)) .finishing false with finalSent := true }
      let s : State := { craneAsked [3, 15, 1] .idle with seqr.runList := [a, b, c] }
      s.mem.st ≠ .faulted ∧ s.seqr.head.map RunJob.id = some a.id ∧ a.loaded = true ∧ a.finalSent = false ∧
      b.finalSent = false ∧ c.finalSent = true ∧ ∀ x ∈ s.seqr.runList, ∀ z ∈ s.seqr.runList, z.id = x.id → z = x) := by
  refine ⟨?_, ?_, ?_, ?_, ?_⟩ <;> decide +kernel

/-- A STEP_DONE record of step 7. -/
def stepDoneAt (pos level measured : Byte) : List Byte := [6, 11, 7, pos, level, measured]

theorem witness_StepDoneTaken :
    ((working (.travel 127 31) .toDest true (stepDoneAt 127 31 0)).requested 11 (stepDoneAt 127 31 0) ∧
      (working (.travel 127 31) .toDest true []).seqr.crane.inFlight = some (stepOf (.travel 127 31) (some idA) .outstanding) ∧
      byteAt (stepDoneAt 127 31 0) 2 = 7 ∧ (working (.travel 127 31) .toDest true []).seqr.head.isSome = true) ∧
    ((working (.pick 3 3 true 1) .picking false (stepDoneAt 0 0 1)).seqr.crane.inFlight =
        some (stepOf (.pick 3 3 true 1) (some idA) .outstanding) ∧ byteAt (stepDoneAt 0 0 1) 5 ≤ (worker []).cfg.rated ∧
      (worker []).cfg.rated < byteAt (stepDoneAt 0 0 3) 5) ∧
    (working (.drop 1 0 true) .dropping true (stepDoneAt 20 3 0)).seqr.crane.inFlight =
        some (stepOf (.drop 1 0 true) (some idA) .outstanding) ∧
    ((worker []).seqr.crane.inFlight = none ∧ (worker []).seqr.crane.retry < (worker []).cfg.retryLimit) ∧
    (127 < byteAt (stepDoneAt 128 0 0) 3 ∧ 31 < byteAt (stepDoneAt 127 32 0) 4 ∧
      (working (.pick 3 3 true 1) .picking false (stepDoneAt 0 0 0)).requested 11 (stepDoneAt 0 0 0) ∧
      ¬ (1 ≤ byteAt (stepDoneAt 0 0 0) 5) ∧ ¬ (byteAt (stepDoneAt 0 0 4) 5 ≤ 3)) := by
  decide +kernel

theorem witness_LearningUpdate :
    (working (.travel 20 3) .toDest true (stepDoneAt 20 3 0)).requested 11 (stepDoneAt 20 3 0) ∧
    (working (.travel 20 3) .toDest true []).cfg.learn = 1 ∧ (stepOf (.travel 20 3) (some idA) .outstanding).first = true ∧
    (stepOf (.travel 20 3) (some idA) .outstanding).entry = some 5 ∧
    exec .stepDone (working (.travel 20 3) .toDest true (stepDoneAt 20 3 0)) =
      .next (after .stepDone (working (.travel 20 3) .toDest true (stepDoneAt 20 3 0))) :=
  ⟨by decide +kernel, by decide +kernel, rfl, rfl, rfl⟩

/-- A STEP_FAULT record of step 7. -/
def stepFaultOf (kind : Byte) : List Byte := [4, 12, 7, kind]

theorem witness_StepFaultTaken :
    ((working (.pick 3 3 true 1) .picking false (stepFaultOf 1)).requested 12 (stepFaultOf 1) ∧
      (working (.pick 3 3 true 1) .picking false []).seqr.crane.inFlight =
        some (stepOf (.pick 3 3 true 1) (some idA) .outstanding) ∧ byteAt (stepFaultOf 1) 2 = 7 ∧
      byteAt (stepFaultOf 9) 3 = 9) ∧
    ((working (.drop 1 0 true) .dropping true []).seqr.stepJob (stepOf (.drop 1 0 true) (some idA) .outstanding)).isSome = true ∧
    ({ worker [] with seqr.crane.retry := 2 }.cfg.retryLimit ≤ 2 ∧ (worker []).seqr.crane.retry < 2) ∧
    ((working (.pick 3 3 true 1) .picking false (stepFaultOf 0)).requested 12 (stepFaultOf 0) ∧ byteAt (stepFaultOf 0) 3 = 0 ∧
      byteAt (stepFaultOf 10) 3 = 10) := by decide +kernel

/-- A stalled crane with an ENDED step. -/
def stalled (act : StepAct) (cause : StallCause) (loaded : Bool) (r : List Byte) : State :=
  let s := working act .picking loaded r
  steps s (stepOf act (some idA) .ended) .stalled cause

theorem witness_RetryAndAbandonTaken :
    ((stalled (.pick 3 3 true 1) .labelMismatch false [3, 13, 1]).requested 13 [3, 13, 1] ∧
      (stalled (.travel 20 3) .pathBlocked false [3, 13, 0]).requested 13 [3, 13, 0] ∧
      (stalled (.travel 20 3) .pathBlocked false []).seqr.crane.state = .stalled ∧
      (stalled (.travel 20 3) .pathBlocked false []).seqr.crane.step = some (stepOf (.travel 20 3) (some idA) .ended)) ∧
    ((stalled (.travel 20 3) .overdue false [3, 14, 1]).requested 14 [3, 14, 1] ∧
      (stalled (.travel 20 3) .overdue true [3, 14, 2]).requested 14 [3, 14, 2] ∧
      (stalled (.travel 20 3) .overdue false []).mem.st ≠ .faulted) ∧
    ({ worker [] with seqr.crane.state := .stalled, seqr.crane.stall := .orphanLoad }.seqr.crane.stall = .orphanLoad ∧
      { worker [] with seqr.crane.stall := .conflict, seqr.crane.load := some idA }.seqr.crane.load = some idA) ∧
    ((craneAsked [3, 13, 2] .idle).requested 13 [3, 13, 2] ∧ (craneAsked [3, 13, 1] .idle).requested 13 [3, 13, 1] ∧
      (craneAsked [3, 14, 0] .idle).requested 14 [3, 14, 0] ∧ (craneAsked [3, 14, 3] .idle).requested 14 [3, 14, 3] ∧
      (craneAsked [3, 14, 2] .idle).requested 14 [3, 14, 2] ∧ (craneAsked [3, 14, 2] .idle).seqr.crane.state ≠ .stalled ∧
      { stalled (.travel 20 3) .orphanLoad false [] with seqr.crane.step := none }.seqr.crane.stall = .orphanLoad) := by
  decide +kernel

/-- A crane station with a HELD step and no head job. -/
def heldStep : State := steps (worker []) (stepOf (.travel 40 2) none .held) .idle .none
/-- Crane station 5 with job A in a phase and its crane at a point. -/
def poised (phase : Phase) (pos level : Nat) : State :=
  let e := entryOf (storeJob idA 0) .active (some 5)
  { worker [e] with seqr.runList := [runJob e phase false], seqr.crane.pos := pos, seqr.crane.level := level }

theorem witness_StepIssuedAndTimed :
    ((clerk []).awake ∧ (clerk []).cfg.isDispatch = true) ∧
    (ready.running = true ∧ ready.cfg.isDispatch = false ∧ ready.seqr.crane.state = .idle ∧ ready.port.notices.length < 32 ∧ ready.seqr.crane.step = none ∧
      ready.yieldAct = none ∧ (ready.seqr.head.map RunJob.phase) = some .waiting ∧ ready.stepSafe (.travel 0 0) = true) ∧
    ((poised .picking 0 0).seqr.crane.point = (storeJob idA 0).source ∧ (poised .picking 0 0).stepSafe (.pick 3 3 true 1) = true) ∧
    (poised .toDest 0 0).stepSafe (.travel 20 3) = true ∧
    ((poised .dropping 20 3).seqr.crane.point = (storeJob idA 0).dest ∧
      (poised .dropping 20 3).stepSafe (.drop 1 0 true) = true) ∧
    (heldStep.yieldAct = none ∧ heldStep.seqr.crane.step = some (stepOf (.travel 40 2) none .held) ∧
      heldStep.stepSafe (.travel 40 2) = true) ∧
    (yielding.yieldAct = some (.travel 88 0) ∧ yielding.seqr.crane.step = none ∧ yielding.sideSafe 88 = true) ∧
    (let held (y : Bool) (p : Nat) := steps yielding { stepOf (.travel p 0) none .held with yield := y } .idle .none;
      (held true 88).yieldAct = some (.travel 88 0) ∧ (held false 88).yieldAct = some (.travel 88 0) ∧
      (held true 96).seqr.crane.setAside = none) ∧
    ((working (.travel 20 3) .toDest true []).seqr.crane.step = some (stepOf (.travel 20 3) (some idA) .outstanding) ∧
      (working (.travel 20 3) .toDest true []).awake) := by decide +kernel

/-! ### The Consistency Monitor -/

theorem witness_SyncAskApplied :
    (heard (clerk []) 5 .syncAsk [9]).link.rxq.head? = some (frameOf 5 .syncAsk [9]) ∧ (clerk []).onLink = true ∧
    (clerk []).mem.st = .active ∧ (clerk []).me = 9 ∧ (clerk []).cons.serving = none ∧
    { clerk [] with cons.serving := some 6 }.cons.serving ≠ none := by decide +kernel

/-- A requester in a phase with donor 5, at a try. -/
def syncing (phase : SyncPhase) (tryNo : Nat) : State :=
  { clerk [] with mem.st := .syncing, cons.phase := phase, cons.donor := some 5, cons.candidates := [5, 6]
                  cons.tryNo := tryNo, cons.snapTimer := .running 1000 }

/-- A SNAP_ITEM of a dock record to station 9. -/
def snapDock : List Byte := [9, 2] ++ (dock4 (some 9)).bytes
/-- A SNAP_END of no item to station 9 with the signature of the replica. -/
def snapEnd (sent : Nat) : List Byte := snapEndPayload 9 sent 0

theorem witness_SnapshotReceived :
    ((heard (syncing .asked 1) 5 .snapHead [9]).applies (frameOf 5 .snapHead [9]) ∧ byteAt [9] 0 = (syncing .asked 1).me ∧
      (syncing .asked 1).cons.donor = some 5) ∧
    ((heard (syncing .receiving 1) 5 .snapItem snapDock).applies (frameOf 5 .snapItem snapDock) ∧
      Item.read snapDock = some (.dock (dock4 (some 9))) ∧ Item.read [9, 2, 16] = none) ∧
    (let s : State := { syncing .receiving 1 with
        rep.jobs := (List.range 64).map fun i => entryOf (storeJob (idC + i) 0) .opened none };
      s.rep.jobs.length = 64 ∧ s.rep.entry idA = none ∧
      Item.read (9 :: (Item.job (entryOf (storeJob idA 0) .opened none)).contents) =
        some (.job (entryOf (storeJob idA 0) .opened none))) := by decide +kernel

/-- Crane station 5 in RECEIVING, its donor station 6. -/
def receiving : State :=
  { worker [] with mem.st := .syncing, cons.phase := .receiving, cons.donor := some 6, cons.tryNo := 1 }

/-- Dispatch station 9 with dock 4 in RECEIVING, with an entry that it reports. -/
def reporting : State :=
  { clerk [entryOf (storeJob idA 0) .opened none] with
    mem.st := .syncing, cons.phase := .receiving, cons.donor := some 6, cons.tryNo := 1
    cfg := ((config 9 2 0 3).setIfInBounds 6 1).setIfInBounds 7 4 }

theorem witness_SnapshotJudged :
    (heard receiving 6 .snapEnd (snapEndPayload 5 0 0)).applies (frameOf 6 .snapEnd (snapEndPayload 5 0 0)) ∧
    byteAt (snapEndPayload 5 0 0) 0 = receiving.me ∧ receiving.cons.donor = some 6 ∧ receiving.cons.phase = .receiving ∧
    wordAt (snapEndPayload 5 0 0) 1 = receiving.cons.itemsApplied ∧ wordAt (snapEndPayload 5 0 0) 1 ≠ 65535 ∧
    wideAt (snapEndPayload 5 0 0) 3 = receiving.rep.signature ∧
    -- R144: a HELD ask, a DEFERRED one and one that goes on, of the partner of the rebuilt record; and one of another.
    (receiving.aisleSet = true ∧ receiving.partner = some 6 ∧
      { receiving with bnd.partnerAsk := .held 6 6 }.bnd.partnerAsk = .held 6 6 ∧
      { receiving with bnd.partnerAsk := .deferred 6 6 }.bnd.partnerAsk.peer = some 6 ∧
      { receiving with bnd.ownAsk := .waiting 10 6 }.bnd.ownAsk.peer = some 6 ∧
      { receiving with bnd.answer := .grant 6 7 3 }.bnd.answer.peer = some 7) ∧
    -- R80: a dispatch station with an entry that it reports.
    (reporting.rep.reporter idA = some reporting.me ∧ reporting.seqr.runList = []) := by decide +kernel

/-- R179: the own item of a crane station and of a dispatch station with one dock; absent, and with another dock. -/
theorem witness_SnapshotJudged_own : receiving.ownItem ∧ ¬ State.ownItem { receiving with rep := Replica.empty } ∧
    reporting.ownItem ∧ ¬ State.ownItem { reporting with cfg := reporting.cfg.setIfInBounds 7 3 } := by
  simp only [← State.ownItemSound_iff]; decide +kernel

/-- Crane station 5 that received a board with job A, ACTIVE, job B, AWARDED to it, and job C, OPEN. -/
def rebuilt (list : List RunJob) (load : Option JobId) : State :=
  let r := signedFloor [entryOf (storeJob idA 0) .active (some 5), entryOf (fetchJob idB 0) .awarded (some 5),
    entryOf (storeJob idC 0) .opened none]
  let s : State := { receiving with rep := r, seqr.runList := list, seqr.crane.load := load }
  heard s 6 .snapEnd (snapEndPayload 5 0 r.signature)

theorem witness_RunListReconciled :
    let kept := runJob (entryOf (fetchJob idB 0) .awarded (some 5)) .waiting false
    let dropped := runJob (entryOf (storeJob idC 0) .awarded (some 5)) .toDest true
    let frame := frameOf 6 .snapEnd (snapEndPayload 5 0 (rebuilt [] none).rep.signature)
    ((rebuilt [kept] none).keyed ∧ (rebuilt [kept] none).applies frame ∧ (rebuilt [kept] none).mem.st = .syncing ∧
      byteAt frame.payload 0 = (rebuilt [kept] none).me ∧ (rebuilt [kept] none).cons.donor = some 6 ∧
      wordAt frame.payload 1 = (rebuilt [kept] none).cons.itemsApplied ∧
      wideAt frame.payload 3 = (rebuilt [kept] none).rep.signature ∧ (rebuilt [kept] none).ownItem ∧
      (rebuilt [kept] none).mem.leaveMark = false) ∧
    ((after .applySnapEnd (rebuilt [kept] none)).seqr.runList.map RunJob.id = [idB, idA] ∧
      (after .applySnapEnd (rebuilt [kept] none)).seqr.crane.stall = .none) ∧
    (let t := after .applySnapEnd (rebuilt [kept, dropped] (some idC));
      t.seqr.runList.map RunJob.id = [idB, idA] ∧ t.seqr.crane.stall = .conflict ∧ t.seqr.crane.load = some idC) := by
  simp only [← State.ownItemSound_iff]; decide +kernel

theorem witness_TryFails :
    ((heard (syncing .receiving 2) 5 .snapEnd (snapEnd 1)).applies (frameOf 5 .snapEnd (snapEnd 1)) ∧
      wordAt (snapEnd 1) 1 ≠ (syncing .receiving 2).cons.itemsApplied ∧ wordAt (snapEnd 65535) 1 = 65535) ∧
    ((syncing .asked 3).cons.snapTimer = .running 1000 ∧ 3 ≤ (syncing .asked 3).cons.tryNo ∧
      (syncing .asked 2).cons.tryNo < 3 ∧ (syncing .asked 2).mem.joinMark = false ∧ (syncing .asked 2).link.txq = []) ∧
    ({ syncing .asking 1 with rep := Replica.empty }.cons.phase = .asking ∧
      12 ≤ { syncing .asking 1 with link.txq := List.replicate 12 dockFrame }.link.txq.length) ∧
    ((heard (syncing .asked 2) 6 .lost [5]).applies (frameOf 6 .lost [5]) ∧
      (heard (syncing .receiving 3) 5 .leave []).applies (frameOf 5 .leave []) ∧ 5 ≠ (syncing .asked 2).me) := by decide +kernel

/-- Example 6.7: station 11, LOW of aisle 6. -/
def station11 (backlog : Nat) : State :=
  let fetch : JobRecord := { id := 4 * 2048 + 100, kind := 2, aisle := 6, srcForm := 4, srcPos := 20, srcLevel := 3
                             dstForm := 1, dstPos := 0, dstLevel := 0, classPrio := 2, pred := 0 }
  let e := entryOf fetch .awarded (some 11)
  { station (config 11 1 6 1) .active
      { floor [e] with
        roster := [craneItem 11 6 .low, { craneItem 12 6 .high with backlog := backlog }]
        aisles := [{ tandem (some 11) (some 12) 9 .set with aisle := 6 }] } with
    seqr.crane.state := .idle, seqr.crane.pos := 30, seqr.crane.level := 5, seqr.runList := [runJob e .waiting false] }

/-- Example 6.7: job 4/101. -/
def crossing (urgent : Bool) : JobEntry :=
  entryOf { id := 4 * 2048 + 101, kind := 3, aisle := 6, srcForm := 2, srcPos := 90, srcLevel := 10, dstForm := 4
            dstPos := 60, dstLevel := 8, classPrio := if urgent then 0x81 else 1, pred := 0 } .opened none

/-! ### Further clauses of the same statements -/

/-- R106: the bytes that mark a class, at the ends of the profile parameters and beside them. -/
theorem witness_ConfigurationAndProfileWritten_classes :
    [0x0117, 0x0118, 0x0119, 0x0136, 0x0137, 0x0138].map
      (fun a => (after (.configurationBlockWrite a 1 (some 2)) State.reset).port.touched) = [[], [0], [0], [3], [3], []] := by
  decide +kernel

/-- A dock record the donor sent, completed; and an item of a job. -/
theorem witness_FrameCompletes_item :
    (let i := Item.dock (dock4 (some 9))
      let f : TxFrame := { dockFrame with kind := .snapItem, payload := 5 :: i.contents, fill := .snapNext 5 }
      (sending f 0).link.txq = [{ f with sequence := some 0 }] ∧ i.key = .dock 4 ∧
      (after .frameComplete { sending f 0 with cons.serving := some 5, cons.sent := [.dock 1] }).cons.sent = [.dock 4, .dock 1]) ∧
    carriedKey (5 :: (Item.job (entryOf (storeJob 65535 0) .opened none)).contents) = .job 65535 ∧
    carriedKey (5 :: (Item.station (craneItem 255 2 .low)).contents) = .station 255 := by decide +kernel

/-- R42: a joiner's JOIN on the line, with eleven and with twelve frames behind it. -/
theorem witness_FrameCompletes_join :
    let s (n : Nat) : State := { sending { dockFrame with kind := .join } 0 with
      mem.st := .syncing, cons.tryNo := 1, cons.donor := some 5
      link.txq := { dockFrame with kind := .join, sequence := some 0 } :: List.replicate n dockFrame }
    ((s 11).link.line = .own ∧ (s 11).mem.st = .syncing ∧ (s 11).cons.phase = .none) ∧
    (after .frameComplete (s 11)).cons.phase = .asking ∧ (after .frameComplete (s 12)).cons.phase = .asking ∧
    (after .frameComplete (s 11)).link.txq.length = 12 ∧ (after .frameComplete (s 12)).link.txq.length = 12 := by decide +kernel

/-- Crane station 5 whose own AWARD of job A is at the head, its pending award the fourth of its places. -/
def full : State :=
  let jobs := [idB, idC, idC + 1].map fun id => entryOf (storeJob id 0) .awarded (some 5)
  { heard (worker (entryOf (storeJob idA 0) .opened none :: jobs)) 5 .award (awardOf idA 1 .bid) with
    seqr.runList := jobs.map fun e => runJob e .waiting false
    seqr.awards := [{ job := idA, mode := .bid, attempt := 1 }], pending := [.applyAwardBid] }

/-- R92, R148: four places taken before and after; and in SYNCING a board that gives the station four. -/
theorem witness_CapacitiesKept_list :
    (full.keyed ∧ full.listed ∧ full.seqr.runList.length + full.seqr.awards.length = 4 ∧
      (∃ a ∈ full.seqr.awards, (frameOf 5 .award (awardOf idA 1 .bid)).awards a = true) ∧
      full.link.rxq.head? = some (frameOf 5 .award (awardOf idA 1 .bid)) ∧ full.mem.st ≠ .syncing) ∧
    (step full = .next (after .applyAwardBid { full with pending := [] }) ∧
      (after .applyAwardBid { full with pending := [] }).seqr.taken = 4) ∧
    (let s := { rebuilt [] none with pending := [.applySnapEnd] };
      s.keyed ∧ s.listed ∧ s.mem.st = .syncing ∧ (s.rep.jobs.filter fun e => e.runBy s.me).length + s.seqr.awards.length ≤ 4) := by
  refine ⟨by decide +kernel, ⟨rfl, by decide +kernel⟩, by decide +kernel⟩

/-- R135: steps beside the conceded segments: a LOW crane's TRAVEL and PICK, a HIGH crane's TRAVEL, and a yield step. -/
theorem witness_TravelKeepsToOwnSide_conceded :
    let low : State := { ready with seqr.crane.pos := 23, bnd.partnerAsk := .deferred 3 6 }
    let pick : State := { poised .picking 0 0 with bnd.partnerAsk := .granting 1 6 }
    let high : State := { steps (partner6 96) (stepOf (.travel 88 2) none .held) .idle .none with bnd.partnerAsk := .granting 10 5 }
    [low, pick, high, yielding].map (fun s => ((after .stepIssue s).seqr.crane.state,
        (after .stepIssue s).seqr.crane.step.map fun st => (st.act, st.yield))) =
      [(.stepping, some (.travel 0 0, false)), (.stepping, some (.pick 3 3 true 1, false)),
        (.stepping, some (.travel 88 2, false)), (.stepping, some (.travel 88 0, true))] ∧
    ([low, pick, high, yielding].map fun s => s.seqr.crane.state) = [.idle, .idle, .idle, .idle] := by decide +kernel

/-- R173: in SYNCING a JOIN of a station without an item, and of one with its item. -/
theorem witness_JoinApplied_syncing :
    ((heard (inState without5 .syncing) 5 .join joinOf5).applies (frameOf 5 .join joinOf5) ∧
      (inState without5 .syncing).rep.present 5 = false) ∧
    ((inState (clerk []) .syncing).keyed ∧
      (heard (inState (clerk []) .syncing) 5 .join joinOf5).applies (frameOf 5 .join joinOf5) ∧
      (inState (clerk []) .syncing).rep.station 5 = some (craneItem 5 2 .low)) := by decide +kernel

/-- R173, R53, R54: in SYNCING a LOST and a LEAVE of a station held and of one not held; the ROSTER notice, and a full queue. -/
theorem witness_DepartureApplied_syncing :
    (let s := syncing .receiving 1;
      s.cons.donor ≠ some 6 ∧ 6 ≠ s.me ∧ s.rep.station 6 = some (craneItem 6 2 .high) ∧ s.rep.station 7 = none ∧
      (heard s 5 .lost [6]).applies (frameOf 5 .lost [6]) ∧ (heard s 7 .leave []).applies (frameOf 7 .leave [])) ∧
    (after .applyLost (heard (clerk []) 6 .lost [5])).port.notices = [[6, 2, 3, 5, 1, 0]] ∧
    (after .applyLeave (heard (syncing .receiving 1) 6 .leave [])).port.notices = [[6, 2, 4, 6, 1, 0]] ∧
    ({ clerk [] with port.notices := List.replicate 32 [] }.port.notices.length = 32) := by decide +kernel

/-- R173: in SYNCING a DIGEST of a held station, the own one among them, and of one not held. -/
theorem witness_DigestApplied_syncing :
    (let s := inState (clerk []) .syncing;
      s.keyed ∧ s.running = false ∧ (heard s 9 .digest (digestOf 0)).applies (frameOf 9 .digest (digestOf 0)) ∧
      s.rep.station 9 = some (deskItem 9 [4]) ∧ (heard s 7 .digest (digestOf 0)).applies (frameOf 7 .digest (digestOf 0)) ∧
      s.rep.station 7 = none) := by decide +kernel

/-- R173: in SYNCING an OFFER of a job that the replica lacks, and a re-offer of one that it holds. -/
theorem witness_OfferApplied_syncing :
    let s := inState (holding .opened none) .syncing
    (heard s 9 .offer (offerOf (storeJob idB 0) 1)).applies (frameOf 9 .offer (offerOf (storeJob idB 0) 1)) ∧
    s.rep.entry idB = none ∧ (heard s 9 .offer (offerOf (storeJob idA 0) 2)).applies (frameOf 9 .offer (offerOf (storeJob idA 0) 2)) ∧
    s.rep.entry (wordAt (offerOf (storeJob idA 0) 2) 0) = some (entryOf (storeJob idA 0) .opened none) := by decide +kernel

/-- Crane station 5: job B waits behind job A, whose phase is FINISHING, and behind one that another station owns. -/
def blockedHead (ahead : Bool) : State :=
  let a := entryOf (storeJob idA 0) .active (some (if ahead then 5 else 6))
  let b := entryOf (storeJob idB idA) .awarded (some 5)
  { worker [a, b] with
    seqr.runList := (if ahead then [{ runJob a .finishing false with finalSent := true }] else []) ++ [runJob b .waiting false] }

/-- R154, R150: no step in SYNCING, in another crane state, with a full notice queue, without a job, or for a blocked head. -/
theorem witness_StepIssuedAndTimed_none :
    ((inState ready .syncing).running = false ∧ { ready with seqr.crane.state := .manual }.seqr.crane.state ≠ .idle ∧
      { ready with port.notices := List.replicate 32 [] }.port.notices.length = 32 ∧ (worker []).yieldAct = none) ∧
    (let s := blockedHead true;
      s.seqr.runList.map (fun x => (x.id, x.phase)) = [(idA, .finishing), (idB, .waiting)] ∧
      (s.rep.entry idB).map (fun e => s.rep.predLive e.job) = some true ∧ s.seqr.crane.step = none ∧ s.yieldAct = none ∧
      (after .stepIssue s).seqr.runList = s.seqr.runList) ∧
    (let t := after .stepIssue (blockedHead false);
      (blockedHead false).seqr.head.map RunJob.id = some idB ∧ t.seqr.crane.step = none ∧
      (t.seqr.runList.map fun y => (y.phase, y.finalSent, y.marks.map fun k => (k.milestone, k.detail))) =
        [(.finishing, true, [(6, 0)])]) ∧
    -- R153: TO_SOURCE, and an entry AWARDED in PICKING, TO_DEST and DROPPING.
    ([Phase.toSource, .picking, .toDest, .dropping].all fun p =>
      let s := { ready with seqr.runList := [runJob (entryOf (storeJob idA 0) .awarded (some 5)) p false] }
      s.yieldAct.isNone && s.seqr.crane.step.isNone && s.seqr.head.map RunJob.phase == some p &&
        decide ((after .stepIssue s).seqr = s.seqr)) = true := by decide +kernel

/-- R171: the next donor above the present one, and the first after the last. -/
theorem witness_TryFails_donor :
    (syncing .asked 2).cons.candidates = [5] ++ 6 :: [] ∧ (syncing .asked 2).cons.donor.getD 0 < 6 ∧
    (after .snapshotTimerExpiry (syncing .asked 2)).cons.donor = some 6 ∧
    (let s := { syncing .asked 2 with cons.donor := some 6 };
      (∀ x ∈ s.cons.candidates, x ≤ s.cons.donor.getD 0) ∧ (after .snapshotTimerExpiry s).cons.donor = some 5) := by decide +kernel

theorem witness_FrameCompletes_head :
    (sending { dockFrame with kind := .snapHead, fill := .snapHead 5 } 0).link.line = .own ∧
    (sending { dockFrame with kind := .snapHead, fill := .snapHead 5 } 0).link.txq =
      [{ kind := .snapHead, payload := [4, 1], sequence := some 0, fill := .snapHead 5 }] := by decide +kernel

/-- R44: a JOIN mark of a crane station and of a dispatch station with one dock. -/
theorem witness_MarkBecomesFrame_join :
    ({ worker [] with mem.joinMark := true }.nextMark.isSome = true ∧ (worker []).cfg.isDispatch = false ∧
      (worker []).cfg.craneEnd = .low ∧ { worker [] with mem.joinMark := true }.link.txq.length < 16) ∧
    ({ clerk [] with mem.joinMark := true }.nextMark.isSome = true ∧ (clerk []).cfg.isDispatch = true ∧
      3 * min 4 (ConfigBlock.dockCount ((clerk []).cfg.setIfInBounds 6 1)) = 3) := by decide +kernel

/-- Crane station 5 whose own AWARD of job A is at the head, with a run list of job B and a crane state. -/
def entering (urgent : Bool) (pred : JobId) (state : CraneState) : State :=
  let a := { storeJob idA pred with classPrio := if urgent then 0x81 else 1 }
  let b := entryOf (storeJob idB 0) .awarded (some 5)
  heard { worker [entryOf a .opened none, b] with seqr.runList := [runJob b .waiting false], seqr.crane.state := state } 5
    .award (awardOf idA 1 .bid)

/-- Job B waits behind job A, which another station owns; an OFFER of job C is at the head. -/
def waitingHead : State :=
  let b := entryOf (fetchJob idB idA) .awarded (some 5)
  heard { worker [entryOf (storeJob idA 0) .awarded (some 6), b] with seqr.runList := [runJob b .waiting false] } 9 .offer
    (offerOf (storeJob idC 0) 1)

/-- R149: a normal, an urgent and an urgent job behind its predecessor enter; one is released at once. R150: a head given up. -/
theorem witness_AwardApplied_list :
    (let s := entering false 0 .idle;
      s.applies (frameOf 5 .award (awardOf idA 1 .bid)) ∧ s.me = 5 ∧ (s.rep.entry idA).isSome = true ∧
      (∀ x ∈ s.seqr.runList, x.id ≠ idA) ∧ (∀ x ∈ s.seqr.runList, ((s.rep.entry x.id).any fun k => k.runBy s.me) = true)) ∧
    ([entering false 0 .idle, entering true 0 .idle, entering true idB .idle, entering false 0 .manual].map fun s =>
        (after .applyAwardBid s).seqr.runList.map fun x => (x.id, x.phase)) =
      [[(idB, .waiting), (idA, .waiting)], [(idA, .waiting), (idB, .waiting)], [(idB, .waiting), (idA, .waiting)],
        [(idB, .waiting), (idA, .finishing)]] ∧
    (let t := after .applyOffer waitingHead;
      t.link.rxq = waitingHead.link.rxq.tail ∧ t.seqr.runList.map (fun x => (x.id, x.phase, x.finalSent)) = [(idB, .finishing, true)] ∧
      t.rep.predLive (fetchJob idB idA) = true) := by
  refine ⟨?_, ?_, ?_⟩ <;> decide +kernel

/-- Crane station 5 that carries job A to its destination, a TRAVEL in flight. -/
def carrying : State := working (.travel 20 3) .toDest true []

theorem witness_TimesAndCosts_points :
    ((worker []).seqr.crane.load = none ∧ { carrying with seqr.crane.load := some idA }.rep.entry idA ≠ none ∧
      { carrying with seqr.crane.load := some idC }.rep.entry idC = none) ∧
    (carrying.seqr.crane.start = (20, 3) ∧ ready.seqr.crane.start = (40, 0)) ∧
    ([entering false 0 .idle, entering true 0 .idle, entering true idB .idle].map fun s =>
      (s.rep.entry idA).map fun e => insertPlace s.seqr.runList e.job) = [some 1, some 0, some 1] ∧
    (ready.approachStart ready.seqr.runList = (20, 3) ∧ ready.approachStart [] = (40, 0)) := by decide +kernel

/-- R112, example 6.7: a job that pays the penalty, one on the own side and one of a FROZEN record; and no record. -/
theorem witness_TimesAndCosts_penalty :
    ((station11 1800).rep.aisle 6 = some { tandem (some 11) (some 12) 9 .set with aisle := 6 } ∧
      (station11 1800).penalty (crossing false).job = 1900 ∧ (worker []).penalty (storeJob idA 0) = 0) ∧
    ((worker []).rep.aisle (worker []).cfg.aisle = some (tandem (some 5) (some 6) 8 .set) ∧
      { worker [] with rep := Replica.empty }.rep.aisle (worker []).cfg.aisle = none) := by decide +kernel

/-- R114: each phase, with the TRAVEL issued and without one. -/
theorem witness_TimesAndCosts_remaining :
    (ready.rep.entry idA ≠ none ∧ (ready.seqr.runList.map RunJob.phase) = [.waiting]) ∧
    (let s (p : Phase) := working (.travel 20 3) p true [];
      [Phase.toSource, .picking, .toDest, .dropping, .finishing].map (fun p => (s p).seqr.runList.map RunJob.phase) =
        [[.toSource], [.picking], [.toDest], [.dropping], [.finishing]] ∧
      (s .toSource).seqr.crane.issuedTravel idA = some 100 ∧ (poised .toSource 5 0).seqr.crane.issuedTravel idA = none ∧
      { carrying with
        seqr.crane.step := none
        seqr.crane.setAside := some (stepOf (.travel 20 3) (some idA) .held, 1) }.seqr.crane.issuedTravel idA = some 100) ∧
    (let t := after .stepIssue ready;
      ready.mem.st ≠ .faulted ∧ exec .stepIssue ready = .next t ∧ t.seqr.crane ≠ ready.seqr.crane ∧
      ∀ r ∈ ready.seqr.runList, ready.blocked r = false) ∧
    (let s := entering false 0 .idle; let t := after .applyAwardBid s;
      exec .applyAwardBid s = .next t ∧ t.seqr.runList.map RunJob.id ≠ s.seqr.runList.map RunJob.id ∧
      ∀ y ∈ t.seqr.runList, y.phase ≠ .finishing) := by
  refine ⟨?_, ?_, ⟨?_, rfl, ?_⟩, rfl, ?_⟩ <;> decide +kernel

/-- R114: the list changes at a SNAP_END, an ABANDON of a CONFLICT stall and a RESOLVE that fails a claim by chain; a head is given
up at a HOMED (log 72). -/
theorem witness_TimesAndCosts_changes :
    let conflict := { asked { worker [] with seqr.runList := [runJob (entryOf (storeJob idA 0) .awarded (some 5)) .toDest true] }
      [3, 14, 1] with seqr.crane.state := .stalled, seqr.crane.stall := .conflict, seqr.crane.load := some idA }
    let dependent := { entryOf (fetchJob idB idA) .awarded (some 5) with attempt := 0 }
    let resolved := heard { worker [entryOf (storeJob idA 0) .stranded (some 6), dependent] with
      seqr.runList := [runJob dependent .waiting false] } 9 .resolve (resolveFrame 2)
    let homing := { asked (blockedHead false) [4, 10, 7, 0] with seqr.crane.state := .unknown }
    ([rebuilt [runJob (entryOf (fetchJob idB 0) .awarded (some 5)) .waiting false] none, conflict, resolved, homing].all
      fun s => decide (s.mem.st ≠ .faulted ∧ s.listed)) = true ∧
    [(after .abandon conflict).seqr.runList.map RunJob.id, (after .applyResolveJob resolved).seqr.runList.map RunJob.id] =
      [[], []] ∧
    (after .homed homing).seqr.runList.map (fun y => (y.id, y.phase)) = [(idB, .finishing)] := by decide +kernel

theorem witness_BoundaryMoves_absent :
    ((heard (clerk []) 9 .resolve [2, 3, 10]).applies (frameOf 9 .resolve [2, 3, 10]) ∧ [2, 3, (10 : Byte)].length ≠ 4 ∧
      (clerk []).rep.aisle (byteAt [2, 3, 10] 1) = none ∧ (clerk []).me = 9 ∧ (clerk []).rep.presentAs 9 .dispatch = true) ∧
    (heard (inState (clerk []) .syncing) 9 .resolve [2, 3, 10]).applies (frameOf 9 .resolve [2, 3, 10]) ∧
    (heard (worker []) 9 .resolve [2, 3, 10]).applies (frameOf 9 .resolve [2, 3, 10]) ∧
    (let s : State := { worker [] with rep.aisles := [], bnd.partnerAsk := .granting 7 6 };
      (heard s 5 .boundary [2, 2, 7, 0]).applies (frameOf 5 .boundary [2, 2, 7, 0]) ∧ s.rep.aisle 2 = none ∧
      s.ownBoundary (frameOf 5 .boundary [2, 2, 7, 0]) = true ∧ s.me = 5) ∧
    (let s : State := { worker [] with mem.st := .syncing, rep.aisles := [], bnd.ownAsk := .waiting 9 6 };
      (heard s 6 .boundary [2, 2, 9, 0]).applies (frameOf 6 .boundary [2, 2, 9, 0]) ∧
      s.ownBoundary (frameOf 6 .boundary [2, 2, 9, 0]) = true ∧ s.bnd.ownAsk = .waiting 9 6) := by decide +kernel

theorem witness_StepDoneTaken_back :
    (working (.travel 0 0) .picking false (stepDoneAt 0 0 0)).requested 11 (stepDoneAt 0 0 0) ∧
    (working (.travel 0 0) .picking false []).seqr.crane.inFlight = some (stepOf (.travel 0 0) (some idA) .outstanding) ∧
    (working (.travel 0 0) .picking false []).seqr.head.map RunJob.phase = some .picking := by decide +kernel

/-- A job-fatal fault of a PICK whose job has left the run list (log 20). -/
theorem witness_StepFaultTaken_left :
    let s := { working (.pick 3 3 true 1) .picking false (stepFaultOf 3) with seqr.runList := [] }
    s.requested 12 (stepFaultOf 3) ∧ s.seqr.crane.inFlight = some (stepOf (.pick 3 3 true 1) (some idA) .outstanding) := by
  decide +kernel

theorem witness_RetryAndAbandonTaken_faulted :
    (inState (stalled (.travel 20 3) .pathBlocked false [3, 13, 0]) .faulted).requested 13 [3, 13, 0] ∧
    (inState (stalled (.travel 20 3) .overdue false [3, 14, 1]) .faulted).requested 14 [3, 14, 1] ∧
    (inState (stalled (.travel 20 3) .overdue false []) .faulted).mem.st = .faulted := by decide +kernel

theorem witness_StepIssuedAndTimed_back :
    ((poised .picking 5 0).seqr.crane.point ≠ (storeJob idA 0).source ∧ (poised .picking 5 0).stepSafe (.travel 0 0) = true ∧
      (poised .picking 5 0).seqr.head.map RunJob.phase = some .picking) ∧
    ((poised .dropping 0 0).seqr.crane.point ≠ (storeJob idA 0).dest ∧ (poised .dropping 0 0).stepSafe (.travel 20 3) = true) ∧
    -- R116: the entry of a TRAVEL along the rail, and of one at the same rail position.
    ((after .stepIssue (poised .picking 5 0)).seqr.crane.step.map Step.entry = some (some 1) ∧
      (after .stepIssue (poised .picking 0 3)).seqr.crane.step.map Step.entry = some (some 35)) := by decide +kernel

/-- R140: inside the conceded segments and clear of them, on both sides. -/
theorem witness_StepIssuedAndTimed_yield :
    let low (pos v : Nat) : State := { worker [] with seqr.crane.pos := pos, bnd.partnerAsk := .deferred v 6 }
    let high (pos : Nat) : State := { yielding with seqr.crane.pos := pos }
    ((low 56 7).rep.aisle 2 = some (tandem (some 5) (some 6) 8 .set) ∧ (low 56 7).yieldAct = some (.travel 55 0) ∧
      (low 63 1).yieldAct = some (.travel 7 0) ∧ (low 55 7).yieldAct = none ∧ (low 64 7).yieldAct = none) ∧
    ((high 72).yieldAct = some (.travel 88 0) ∧ (high 87).yieldAct = some (.travel 88 0) ∧ (high 71).yieldAct = none ∧
      (high 88).yieldAct = none) := by decide +kernel

theorem witness_SnapshotReceived_items :
    Item.read (9 :: (Item.station (craneItem 5 2 .low)).contents) = some (.station (craneItem 5 2 .low)) ∧
    Item.read (9 :: (Item.aisle (tandem (some 5) (some 6) 8 .set)).contents) = some (.aisle (tandem (some 5) (some 6) 8 .set)) ∧
    Item.read (9 :: (Item.job (entryOf (storeJob idA 0) .opened none)).contents) =
      some (.job (entryOf (storeJob idA 0) .opened none)) := by decide +kernel

/-- A job kept in its phase, a WAITING head that R150 gives up, and the jobs appended. -/
theorem witness_RunListReconciled_jobs :
    let a := entryOf (storeJob idA 0) .active (some 5)
    let b := entryOf (fetchJob idB 0) .awarded (some 5)
    let behindC := entryOf (fetchJob idB idC) .awarded (some 5)
    let s : State := rebuilt [] none
    let r := signedFloor [a, behindC, entryOf (storeJob idC 0) .opened none]
    let stuck : State := heard { s with rep := r, seqr.runList := [runJob behindC .waiting false] } 6 .snapEnd
      (snapEndPayload 5 0 r.signature)
    (after .applySnapEnd (rebuilt [runJob a .toDest true, runJob b .finishing false] none)).seqr.runList.map
      (fun x => (x.id, x.phase, x.loaded)) = [(idA, .toDest, true), (idB, .finishing, false)] ∧
    (after .applySnapEnd (rebuilt [] none)).seqr.runList.map (fun x => (x.id, x.phase, x.loaded)) =
      [(idA, .finishing, false), (idB, .finishing, false)] ∧
    (after .applySnapEnd stuck).seqr.runList.map (fun x => (x.id, x.phase)) = [(idB, .finishing), (idA, .finishing)] := by
  refine ⟨?_, ?_, ?_⟩ <;> decide +kernel

/-! ## Single steps and single operations, with the values of the manual's own examples -/

/-- R16, example 2.9: station 9 with last sender 5, 9, 30 and 2. -/
theorem test_positions : [5, 9, 30, 2].map (fun n => State.position { clerk [] with link.lastSender := n }) = [3, 31, 10, 6] := by
  decide +kernel

/-- R12, example 1.7: the sequence wraps past ids on the board, and the counter follows. -/
theorem test_sequence_wraps :
    let s : State := { station (config 3 2 0 3) .active (floor [entryOf (storeJob (3 * 2048 + 2047) 0) .done none,
      entryOf (storeJob (3 * 2048) 0) .active (some 5)]) with board.seqCounter := 2047 }
    let t := after .submit (asked s submitRecord)
    (t.board.offers.map fun o => o.job.id) = [6145] ∧ t.board.seqCounter = 2 ∧
      t.port.notices = [[7, 3, 0x18, 0x01, 0, 0, 0]] := by decide +kernel

/-- R6, R7, example 1.8. -/
theorem test_reach :
    let j (kind : Nat) (src dst : Byte) (p q : Nat) : JobRecord :=
      { storeJob idA 0 with kind := kind, srcForm := src, srcPos := p, dstForm := dst, dstPos := q }
    [(j 2 4 1 40 0).reachableTandem, (j 2 2 1 118 0).reachableTandem, (j 1 1 0 127 9).reachableTandem,
      (j 3 0 2 20 100).reachableTandem, (j 3 0 0 4 124).reachableTandem] = [true, false, false, true, false] := by
  decide +kernel

/-- R109–R114, example 6.7: the remaining estimate, the cost, the saturated cost, and the URGENT cost. -/
theorem test_cost : ((station11 1800).reestimate.seqr.runList.map RunJob.remaining) = [1671] ∧
    (station11 1800).reestimate.cost (crossing false) = 5650 ∧ (station11 65000).reestimate.cost (crossing false) = 65535 ∧
    (station11 1800).reestimate.cost (crossing true) = 3839 := by decide +kernel

/-- R116, example 6.8: the entry after each row. -/
theorem test_learning : [corrected 340 372 340, corrected 199 203 199, corrected 344 320 344, corrected 276 276 276,
    corrected 341 340 341] = [344, 199, 341, 276, 340] := by decide

/-- R52: behind an own LEAVE that has completed and is not yet applied no frame starts; behind another station's one does. -/
theorem test_leave_is_last :
    let waits (n : Station) : State := heard { timed [dockFrame] with mem.st := .draining } n .leave []
    (after (.frameStart 8 true) (waits 9)).link = (waits 9).link ∧
      (after (.frameStart 8 true) (waits 5)).link.line = .own := by decide +kernel

/-- 00_scope.md, R154: a dispatch station issues no step, here of a HELD one kept from its time as a crane station. -/
theorem test_dispatch_issues_nothing :
    let s : State := { heldStep with cfg := config 5 2 2 1 }
    (after .stepIssue s).seqr.crane = s.seqr.crane ∧ (after .stepIssue heldStep).seqr.crane.state = .stepping := by
  decide +kernel

/-- R190, R191, R193, example 11.9: a partial read gives the record whole again. -/
theorem test_partial_read :
    let s := after (.noticePortRead (some 1)) (noticed 0)
    s.port.dataOut = 4 ∧ s.port.noticePos = 1 ∧ (after .selectRelease s).port.noticePos = 0 ∧
      (after .selectRelease s).port.notices = [[4, 1, 1, 0]] := by decide +kernel

/-- R33, R34, example 2.10: a gap sets the loss flag and moves the entry. -/
theorem test_gap :
    let s : State := { clerk [] with link.seqTable := (clerk []).link.seqTable.setIfInBounds 5 (some 5) }
    let t := after (.frameReceive (leaveBytes 5)) s
    t.link.loss = true ∧ t.link.seqTable[5]? = some (some 7) ∧ t.link.rxq.length = 1 ∧ t.link.lastSender = 5 := by
  decide +kernel

/-- R40, R39: an accepted JOIN request. -/
theorem test_join_request :
    let t := after .joinRequest (joining (config 9 2 0 3) .unknown 0)
    t.mem.st = .listening ∧ t.mem.listenTimer = .running 1000 ∧ t.port.notices = [[4, 1, 1, 0]] ∧ t.port.stateChange = true ∧
      t.mem.hash = some (crc16 [0, 250, 0, 80, 5]) := by decide +kernel

/-- R106 (the default parameters 50, 25, 80, 24 of class 2), log 17: an accepted JOIN computes a touched class, and no
other. -/
theorem test_join_request_touched :
    let t := after .joinRequest { joining (config 9 2 0 3) .unknown 0 with
      port.touched := [2], profile := Vector.replicate 256 7 }
    [127, 128, 159, 160, 191, 192].map t.profile.at = [7, 50, 825, 80, 824, 7] := by decide +kernel

/-- R42, R45: a station alone joins and founds the floor: its JOIN mark, then its own item. -/
theorem test_founding :
    (after .listenTimerExpiry (listener [] [])).mem.joinMark = true ∧
    let t := after .foundingJoin (heard (listener [] []) 5 .join joinOf5)
    t.mem.st = .active ∧ t.rep.roster = [joinItem 5 joinOf5] ∧ t.rep.signature = t.rep.sum := by decide +kernel

/-- R94, R122, R149: an AWARD at its sender: the entry, the run list. -/
theorem test_award :
    let t := after .applyAwardBid (heard (bids [⟨5, 30⟩]) 5 .award (awardOf idA 1 .bid))
    (t.rep.entry idA).map JobEntry.state = some .awarded ∧ (t.rep.entry idA).bind JobEntry.owner = some 5 ∧
      t.seqr.runList.map RunJob.id = [idA] := by decide +kernel

/-- R68, R65, R123: DONE of a RETRIEVE settles its place and opens the job behind it. -/
theorem test_done :
    let t := after .applyProgressDone (heard (owned .active) 5 .progress (progressA 3 0))
    (t.rep.entry idA).map JobEntry.state = some .done ∧ (t.rep.entry idB).map JobEntry.state = some .opened ∧
      (t.rep.dock 4).map (fun d => (d.free, d.reserved, d.occupied)) = some (1, 0, 2) := by decide +kernel

/-- R66, R124: FAILED of the owner returns the place and fails the job behind. -/
theorem test_failed :
    let t := after .applyProgressFailed (heard (owned .active) 5 .progress (progressA 4 7))
    (t.rep.entry idA).map (fun e => (e.state, e.reason)) = some (.failed, 7) ∧
      (t.rep.entry idB).map (fun e => (e.state, e.reason)) = some (.failed, 3) ∧
      (t.rep.dock 4).map (fun d => (d.free, d.reserved, d.occupied)) = some (2, 0, 1) := by decide +kernel

/-- R126: a DOCK clears one place, and one above the occupied count is told to its sender. -/
theorem test_dock :
    ((after .applyDock (heard (clerk []) 9 .dock [4, 1])).rep.dock 4).map (fun d => (d.free, d.occupied)) = some (2, 0) ∧
    (after .applyDock (heard (clerk []) 9 .dock [4, 2])).port.notices = [[5, 10, 4, 2, 1]] := by decide +kernel

/-- R153–R155, R165: the first TRAVEL of the head job. -/
theorem test_first_step :
    let t := after .stepIssue ready
    t.seqr.crane.state = .stepping ∧ t.seqr.crane.step.map (fun st => (st.id, st.act, st.estimate, st.expiry)) =
      some (0, .travel 0 0, 240, 14800) ∧ t.port.notices.head? = some [8, 4, 0, 1, 0x48, 0x01, 0, 0] ∧
      t.seqr.runList.map RunJob.phase = [.toSource] := by decide +kernel

/-- R158: the PICK ends: the load, the phase, the milestone. -/
theorem test_pick_done :
    let t := after .stepDone (working (.pick 3 3 true 1) .picking false (stepDoneAt 0 0 1))
    t.seqr.crane.state = .idle ∧ t.seqr.crane.load = some idA ∧ t.seqr.runList.map RunJob.phase = [.toDest] ∧
      (t.seqr.runList.flatMap RunJob.marks).map MilestoneMark.milestone = [2] := by decide +kernel

/-- R160: PATH_BLOCKED at the retry limit stalls the crane. -/
theorem test_fault_at_limit :
    let s := working (.travel 20 3) .toDest true (stepFaultOf 2)
    let t := after .stepFault { s with seqr.crane.retry := 2 }
    t.seqr.crane.state = .stalled ∧ t.seqr.crane.stall = .pathBlocked ∧
      (after .stepFault s).seqr.crane.retry = 1 ∧ (after .stepFault s).seqr.crane.state = .idle := by decide +kernel

/-- R163, R164: MODE MANUAL surrenders the list: the loaded head STRANDED, the job behind it RELEASED. -/
theorem test_surrender :
    let s := working (.travel 20 3) .toDest true [3, 15, 1]
    let t := after .modeManual { s with
      seqr.runList := s.seqr.runList ++ [runJob (entryOf (storeJob idB 0) .awarded (some 5)) .waiting false] }
    (t.seqr.runList.map fun r => (r.phase, r.finalSent, r.marks.map MilestoneMark.milestone)) =
      [(.finishing, true, [5]), (.finishing, true, [6])] ∧ t.seqr.crane.state = .manual ∧ t.seqr.crane.step = none := by
  decide +kernel

/-- R74, R166: a CANCEL takes the job out of the run list and its STARTED out of the transmit queue; one too late is told to
its sender. -/
theorem test_cancel :
    let t := after .applyCancel (heard beginning 9 .cancel (be16 idA))
    t.seqr.runList = [] ∧ t.link.txq = [] ∧ (t.rep.entry idA).map JobEntry.state = some .cancelled ∧
      (after .applyCancel (heard (owned .active) 9 .cancel (be16 idA))).port.notices = [[5, 13, 0x48, 0x01, 4]] := by
  decide +kernel

/-- R137, R139, R141: an ask answered at once, and the GRANT that moves the boundary. -/
theorem test_ask :
    (after .applyBoundaryAsk (heard (partner6 120) 5 .boundary [2, 1, 10, 0])).bnd.partnerAsk = .granting 10 5 ∧
    (after .applyBoundaryAsk (heard (partner6 80) 5 .boundary [2, 1, 10, 0])).bnd.partnerAsk = .deferred 10 5 ∧
    ((after .applyBoundaryGrant (heard (worker []) 6 .boundary [2, 2, 10, 0])).rep.aisle 2).bind AisleRecord.boundary =
      some 10 := by decide +kernel

/-- R140: the yield step leaves the conceded segments. -/
theorem test_yield : (after .stepIssue yielding).seqr.crane.step.map (fun st => (st.act, st.job)) = some (.travel 88 0, none) := by
  decide +kernel

/-- R170, R171: a differing DIGEST counts a mismatch, and a second begins the resynchronisation. -/
theorem test_mismatch :
    let s : State := { clerk [] with rep := signedFloor [] }
    let t := after .applyDigest (heard s 5 .digest (digestOf 0))
    let u := after .applyDigest (heard t 6 .digest (digestOf 0))
    t.cons.mismatch = 1 ∧ t.mem.st = .active ∧ u.mem.st = .syncing ∧ u.cons.candidates = [5, 6] ∧ u.cons.donor = some 5 ∧
      u.rep = Replica.empty := by decide +kernel

/-- R178, R179, R181: one item received, and a SNAP_END that passes the check. -/
theorem test_snapshot :
    let s := heard (syncing .receiving 1) 5 .snapItem snapDock
    (after .applySnapItem s).cons.itemsApplied = 1 ∧ (after .applySnapItem s).rep.docks = [dock4 (some 9)] ∧
    (after .applySnapEnd (heard receiving 6 .snapEnd (snapEndPayload 5 0 0))).mem.st = .active := by decide +kernel

/-- R184: after an access byte that is neither 1 nor 2 nothing is written until select is released; with 2 the byte is
taken, and the pointer moves on. -/
theorem test_access_byte :
    let write (k : Byte) := after (.configurationBlockWrite 0x0100 9 (some k)) State.reset
    (write 3).cfg = ConfigBlock.default ∧ (after (.configurationBlockWrite 0x0101 2) (write 3)).cfg = ConfigBlock.default ∧
    (write 2).cfg.number = 9 ∧ (after (.configurationBlockWrite 0x0101 2) (write 2)).cfg.roleByte = 2 ∧
    ((after .selectRelease (write 3)).attends (some 2) true 0x0100) :=
  ⟨by decide +kernel, by decide +kernel, by decide +kernel, by decide +kernel, attends_first _ true _ rfl rfl rfl⟩

/-- R184: the pointer wraps within the region: after the last byte of the configuration block comes the first. -/
theorem test_pointer_wraps :
    let t := after (.configurationBlockWrite 0x0141 0 (some 2)) State.reset
    t.port.txn = some { write := true, start := 0x0141, pointer := 0x0100, void := false } ∧
      (after (.configurationBlockWrite 0x0100 9) t).cfg.number = 9 := by decide +kernel

/-- R184: a transaction that starts in no region takes nothing, also where its pointer comes into one. -/
theorem test_no_region :
    let t := after (.ignoredWrite 0x01FF 0 (some 2)) State.reset
    t.port.txn = some { write := true, start := 0x01FF, pointer := 0x0200, void := false } ∧
      (after (.requestPortWrite 2) t).port.asm = [] := by decide +kernel

/-- R194: a reset by request: nothing is left but a transaction in progress, now void. -/
theorem test_reset_request :
    let txn : Transaction := { write := true, start := 0x200, pointer := 0x200, void := false }
    let t := after .resetRequest (asked { clerk [] with port.txn := some txn } [2, 4])
    t.cfg = ConfigBlock.default ∧ t.rep = Replica.empty ∧ t.port.txn = some { txn with void := true } ∧ t.port.notices = [] ∧
      (after (.requestPortWrite 2) t).port.asm = [] := by decide +kernel

/-- R194: a byte of a transaction whose access and address bytes went before a reset is ignored. -/
theorem test_cut_off : (after (.requestPortWrite 2) State.reset).port.asm = [] ∧
    (after (.requestPortWrite 2 (some 2)) State.reset).port.asm = [2] := by decide +kernel

/-- R18: a frame received whole sets the last sender to its sender byte 0; a damaged one does not. -/
theorem test_last_sender_zero :
    let s : State := { clerk [] with link.lastSender := 5 }
    (after (.frameReceive (leaveBytes 0)) s).link.lastSender = 0 ∧
      (after (.frameReceive [0, 2, 7, 0, 0, 0]) s).link.lastSender = 5 := by decide +kernel

/-- R66, R63: an entry that enters FAILED at its OFFER fails a claim by chain that names its id, which returns its place. -/
theorem test_failed_at_offer :
    let t := after .applyOffer (heard failing 9 .offer (offerOf (storeJob idB idA) 1))
    [idB, idC].map (fun k => (t.rep.entry k).map fun e => (e.state, e.reason)) = [some (.failed, 3), some (.failed, 3)] ∧
      (t.rep.dock 4).map (fun d => (d.free, d.reserved)) = some (2, 0) := by decide +kernel

/-- R148: an own AWARD accepted in SYNCING for a job of the run list enters no second one (log 35). -/
theorem test_listed_once :
    let e := entryOf (storeJob idA 0) .opened none
    let s : State := { inState (worker [e]) .syncing with seqr.runList := [runJob e .toDest true] }
    let t := after .applyAwardBid (heard s 5 .award (awardOf idA 1 .bid))
    t.seqr.runList = s.seqr.runList ∧ (t.rep.entry idA).map JobEntry.owner = some (some 5) := by decide +kernel

/-- R175: a SNAP_HEAD waits for the empty receive queue. -/
theorem test_snap_head_waits :
    let start (s : State) := (after (.frameStart 8 true) s).link.line
    start (donor (.snapHead 5) []) = .own ∧ start (heard (donor (.snapHead 5) []) 5 .digest []) = .free := by decide +kernel

/-- R135, R140, R151: an orphaned HELD step is no yield step: the yield step goes ahead of it, and it is set aside. -/
theorem test_orphan_is_no_yield :
    let t := after .stepIssue (steps yielding (stepOf (.travel 96 0) none .held) .idle .none)
    t.seqr.crane.step.map (fun st => (st.act, st.yield)) = some (.travel 88 0, true) ∧
      t.seqr.crane.setAside = some (stepOf (.travel 96 0) none .held, 0) := by decide +kernel

/-- The idle step: one millisecond passes (log 1). -/
theorem test_idle : step State.reset = .next { State.reset with now := 1 } := rfl

end Sys2Proof.Tests
end

section
/-! SUPPORT. The places of a dock (R119, R126): what a put of a dock record leaves of the replica, what each case of a DOCK
does, and what its application gives. -/

namespace Sys2Proof.Machine

/-! ## A dock record put in place -/

/-- R118: the record of each dock after a put. -/
theorem Replica.dock_putDock (r : Replica) (d : DockRecord) (k : Nat) :
    (r.putDock d).dock k = if d.number = k then some d else r.dock k :=
  findKey_putKey DockRecord.number d k r.docks

/-- The record found under a number has that number. -/
theorem Replica.number_of_dock {r : Replica} {n : Nat} {d : DockRecord} (h : r.dock n = some d) : d.number = n :=
  (mem_of_findKey DockRecord.number n d r.docks h).2

/-! ## The judgement of a DOCK (R126) -/

section
variable {x : Ctx} {sender : Station} {n count : Nat} {w : Rework} {d : DockRecord}

/-- R126, first case: the clear transfer of R119. -/
theorem Rework.freed_of_clear (held : w.rep.dock n = some d) (serves : d.server = some sender) (least : 1 ≤ count)
    (most : count ≤ 4) (enough : count ≤ d.occupied) :
    w.freed x sender n count =
      { w with rep := w.rep.putDock { d with occupied := d.occupied - count, free := d.free + count } } := by
  simp [Rework.freed, DockRecord.clear, held, serves, least, most, enough]

/-- R126, second case: a count above the occupied places is told to its sender as an underflow. -/
theorem Rework.freed_of_underflow (held : w.rep.dock n = some d) (serves : d.server = some sender) (least : 1 ≤ count)
    (most : count ≤ 4) (short : d.occupied < count) :
    w.freed x sender n count = if sender = x.me then w.note (noticeUnderflow n count d.occupied) else w := by
  simp [Rework.freed, held, serves, least, most, Nat.not_le.2 short]

/-- R126: a DOCK of another sender than the server, or with a count outside 1–4, is refused. -/
theorem Rework.freed_of_refused (held : w.rep.dock n = some d) (bad : d.server ≠ some sender ∨ count < 1 ∨ 4 < count) :
    w.freed x sender n count = if sender = x.me then w.note (noticeRefused 7 badField 0 n) else w := by
  have judged : ¬ (d.server = some sender ∧ 1 ≤ count ∧ count ≤ 4) := by
    rintro ⟨serves, least, most⟩
    rcases bad with other | low | high
    · exact other serves
    all_goals omega
  simp only [Rework.freed, held, Bool.and_eq_true, beq_iff_eq, decide_eq_true_eq, if_neg judged]

/-- R126, R128: a DOCK of a record that the table lacks is refused, but in SYNCING. -/
theorem Rework.freed_of_lacking (lacks : w.rep.dock n = none) :
    w.freed x sender n count =
      if sender = x.me ∧ x.syncing = false then w.note (noticeRefused 7 badField 0 n) else w := by
  simp [Rework.freed, lacks]

/-- R119: a DOCK keeps the replica, or puts a record of the dock it names. -/
theorem Rework.freed_rep (x : Ctx) (sender : Station) (n count : Nat) (w : Rework) :
    (w.freed x sender n count).rep = w.rep ∨
      ∃ d, d.number = n ∧ (w.freed x sender n count).rep = w.rep.putDock d := by
  cases held : w.rep.dock n with
  | none =>
    rw [Rework.freed_of_lacking held]
    exact .inl (by split <;> rfl)
  | some d =>
    by_cases bad : d.server ≠ some sender ∨ count < 1 ∨ 4 < count
    · rw [Rework.freed_of_refused held bad]
      exact .inl (by split <;> rfl)
    · obtain ⟨serves, least, most⟩ : d.server = some sender ∧ 1 ≤ count ∧ count ≤ 4 := by
        simpa only [not_or, Classical.not_not, Nat.not_lt] using bad
      by_cases enough : count ≤ d.occupied
      · rw [Rework.freed_of_clear held serves least most enough]
        have number := Replica.number_of_dock held
        refine .inr ⟨_, ?_, rfl⟩
        exact number
      · rw [Rework.freed_of_underflow held serves least most (Nat.not_le.1 enough)]
        exact .inl (by split <;> rfl)

/-- R119: a DOCK leaves the other tables, and the records of the other docks. -/
theorem Rework.freed_keeps (x : Ctx) (sender : Station) (n count : Nat) (w : Rework) :
    (w.freed x sender n count).rep.roster = w.rep.roster ∧ (w.freed x sender n count).rep.aisles = w.rep.aisles ∧
      (w.freed x sender n count).rep.jobs = w.rep.jobs ∧
      ∀ k, k ≠ n → (w.freed x sender n count).rep.dock k = w.rep.dock k := by
  rcases w.freed_rep x sender n count with same | ⟨d, number, put⟩
  · simp [same]
  · rw [put]
    refine ⟨rfl, rfl, rfl, fun k other => ?_⟩
    rw [Replica.dock_putDock, number, if_neg other.symm]

end

/-! ## Its notices (R190) -/

/-- R126: the notice of an underflow, byte by byte. -/
theorem noticeUnderflow_bytes (n count occupied : Nat) :
    noticeUnderflow n count occupied = [5, 10, b8 n, b8 count, b8 occupied] := rfl

/-- R126: the refusal of a DOCK names the dock of its payload. -/
theorem noticeRefused_dock (p : List Byte) (i : Nat) :
    noticeRefused 7 badField 0 (byteAt p i) = [7, 8, 7, 3, 0, 0, b8 (byteAt p i)] := by
  have small : byteAt p i / 256 = 0 := Nat.div_eq_of_lt (BitVec.isLt _)
  simp [noticeRefused, noticeRecord, be16, small, badField, b8]

/-! ## The application -/

/-- The replica's part of an application that starts from the tables `r`. -/
abbrev Replica.begin (r : Replica) : Rework := { rep := r, notes := [], gone := [] }

/-- The replica after an application is that of its effect. -/
theorem State.applyRep_rep (s : State) (f : Rework → Rework) : (s.applyRep f).rep = (f s.rep.begin).rep := by
  simp [State.applyRep, State.rework]

/-- The port after an application has the notices of its effect, in order. -/
theorem State.applyRep_port (s : State) (f : Rework → Rework) :
    (s.applyRep f).port = (f s.rep.begin).notes.foldl Port.give s.port := by
  simp [State.applyRep, State.rework]

/-- R126: APPLY_DOCK at a station that applies the frame. -/
theorem exec_applyDock_of {s : State} {f : Frame} (h : s.applies f) (kind : f.kind = .dock) :
    ∃ t, exec .applyDock s = .next t ∧
      t.rep = (s.rep.begin.freed s.ctx f.sender (byteAt f.payload 0) (byteAt f.payload 1)).rep ∧
      t.port = (s.rep.begin.freed s.ctx f.sender (byteAt f.payload 0) (byteAt f.payload 1)).notes.foldl Port.give
        s.port := by
  have run : exec .applyDock s = .next (s.run applyDock) := rfl
  rw [run, State.run_of_awake h.1, applyDock, State.takeFrame_of h (by simp [kind])]
  refine ⟨_, rfl, ?_, ?_⟩
  · simp only [State.markLeave_frame, State.applyRep_rep]
    rfl
  · simp only [State.markLeave_frame, State.applyRep_port]
    rfl

/-- R38: a frame that a running station ignores leaves the receive queue, and nothing else changes. -/
theorem State.takeFrame_of_ignored {s : State} {fr : Frame} {rest : List Frame} (on : s.onLink = true)
    (queue : s.link.rxq = fr :: rest) (deaf : s.hears fr = false) {p : Frame → Bool} (hp : p fr = true)
    (f : Frame → State → State) : s.takeFrame p f = { s with link := { s.link with rxq := rest } } := by
  have deaf : s.popFrame.hears fr = false := deaf
  unfold State.takeFrame
  split
  · next e => simp [queue] at e
  · next x y e =>
    obtain ⟨rfl, rfl⟩ : fr = x ∧ rest = y := by simpa [queue] using e
    simp only [on, hp, deaf, Bool.and_self, if_true, Bool.false_eq_true, if_false]
    simp [State.popFrame, queue]

/-- R38: outside SYNCING a DOCK of a sender absent from the Roster is not heard. -/
theorem State.hears_dock_of_absent {s : State} {f : Frame} (running : s.running = true) (kind : f.kind = .dock)
    (absent : s.rep.present f.sender = false) : s.hears f = false := by
  have live : s.mem.st ≠ .syncing := by
    intro e
    simp [State.running, e] at running
  simp [State.hears, live, absent, kind]

/-- R126: the DOCK of a sender absent from the Roster is ignored. -/
theorem exec_applyDock_of_absent {s : State} {f : Frame} {rest : List Frame} (awake : s.awake) (running : s.running = true)
    (queue : s.link.rxq = f :: rest) (kind : f.kind = .dock) (absent : s.rep.present f.sender = false) :
    exec .applyDock s = .next (State.markLeave { s with link := { s.link with rxq := rest } }) := by
  have run : exec .applyDock s = .next (s.run applyDock) := rfl
  have deaf := State.hears_dock_of_absent running kind absent
  rw [run, State.run_of_awake awake, applyDock,
    State.takeFrame_of_ignored (by simp [State.onLink, running]) queue deaf (by simp [kind])]

/-- Settles O45: each case of R126 from the equation of its judgement. -/
theorem dockApplied : Obligations.DockApplied := by
  unfold Obligations.DockApplied
  refine ⟨fun s f h kind => ?_, fun s f rest => exec_applyDock_of_absent⟩
  obtain ⟨t, run, rep, port⟩ := exec_applyDock_of h kind
  obtain ⟨roster, aisles, jobs, others⟩ :=
    s.rep.begin.freed_keeps s.ctx f.sender (byteAt f.payload 0) (byteAt f.payload 1)
  rw [← rep] at roster aisles jobs others
  refine ⟨t, run, roster, aisles, jobs, others, fun d held serves least most => ⟨fun enough => ?_, fun short => ?_⟩,
    fun d held bad => ?_, fun lacks => ?_⟩
  · rw [rep, port, Rework.freed_of_clear held serves least most enough, Replica.dock_putDock]
    exact ⟨rfl, if_pos (Replica.number_of_dock held)⟩
  · rw [rep, port, Rework.freed_of_underflow held serves least most short]
    by_cases own : f.sender = s.me <;> simp [own, State.ctx, Rework.note, noticeUnderflow_bytes]
  · rw [rep, port, Rework.freed_of_refused held bad]
    by_cases own : f.sender = s.me <;> simp [own, State.ctx, Rework.note, noticeRefused_dock]
  · rw [rep, port, Rework.freed_of_lacking lacks]
    by_cases told : f.sender = s.me ∧ s.mem.st ≠ .syncing <;>
      simp [told, State.ctx, Rework.note, noticeRefused_dock]

end Sys2Proof.Machine
end

section
/-! SUPPORT. The taking of a SYNC_ASK (R174): that no sender keeps it from being heard, and what the Consistency Monitor
holds afterwards. -/

namespace Sys2Proof.Machine

/-- R38, R174: a station in ACTIVE, DRAINING or SYNCING applies a SYNC_ASK, its sender present in the Roster or absent. -/
theorem State.applies_of_syncAsk {s : State} {f : Frame} (awake : s.awake) (on : s.onLink = true)
    (head : s.link.rxq.head? = some f) (kind : f.kind = .syncAsk) : s.applies f :=
  ⟨awake, on, head, by simp [State.hears, kind]⟩

/-- R38: the taking of a frame does not change the station's number. -/
theorem State.me_popFrame_restartSilence (s : State) (n : Station) : (s.popFrame.restartSilence n).me = s.me := rfl

/-- R174: APPLY_SYNC_ASK at a station that applies the frame changes the Consistency Monitor by one judgement of the donor
named, the state and the serve in progress, and leaves the replica, the port and the station state. -/
theorem exec_applySyncAsk_of {s : State} {f : Frame} (h : s.applies f) (kind : f.kind = .syncAsk) :
    ∃ t, exec .applySyncAsk s = .next t ∧ t.rep = s.rep ∧ t.port = s.port ∧ t.mem.st = s.mem.st ∧
      t.cons = if byteAt f.payload 0 = s.me ∧ s.mem.st = .active ∧ s.cons.serving = none then
        { s.cons with serving := some f.sender, sent := [], itemsSent := 0, mark := .head } else s.cons := by
  have run : exec .applySyncAsk s = .next (s.run applySyncAsk) := rfl
  rw [run, State.run_of_awake h.1, applySyncAsk, State.takeFrame_of h (by simp [kind])]
  refine ⟨_, rfl, ?_⟩
  by_cases serves : byteAt f.payload 0 = s.me ∧ s.mem.st = .active ∧ s.cons.serving = none <;>
    simp [State.me_popFrame_restartSilence, serves]

/-- Settles O56: whatever its sender, a SYNC_ASK is heard, and the judgement of R174 alone decides whether it is taken. -/
theorem syncAskApplied : Obligations.SyncAskApplied := by
  unfold Obligations.SyncAskApplied
  intro s f awake on head kind
  obtain ⟨t, run, rep, port, st, cons⟩ := exec_applySyncAsk_of (State.applies_of_syncAsk awake on head kind) kind
  exact ⟨t, run, rep, port, st, fun taken => cons.trans (if_pos taken), fun ignored => cons.trans (if_neg ignored)⟩

end Sys2Proof.Machine
end
